-- ==== Sys2Proof/Word.lean ====
section
/-! DEFINITION. The two machine words of the CORE (00_scope.md R6, R9): bytes and 16-bit addresses. Arithmetic
on them is `BitVec`'s own and wraps modulo 256 and 65536, as R9 asks. -/

namespace Sys2Proof

/-- `u8` of 00_scope.md R9: a register, a memory byte, an opcode byte. -/
abbrev Byte := BitVec 8

/-- `u16` of 00_scope.md R9: an address or the program counter. -/
abbrev Word := BitVec 16

end Sys2Proof
end

