-- ==== Sys2Proof/Syntax.lean ====
section
/-! DEFINITION. The syntax of the instruction set: the kinds and addressing modes of the decoder's entries
(30_encoding.md R83, R84) and the instructions, one constructor for each documented opcode byte of R86 and one for the
`Unimplemented` variant, which carries its opcode byte (R88). An operand is what the instruction's bytes hold (R82):
`nn` the one operand byte, `hhll` the 16-bit operand. -/

namespace Sys2Proof

/-- The addressing mode tags (R83). -/
inductive Mode where
  | immediate | zeroPage | zeroPageX | zeroPageY | absolute | absoluteX | absoluteY
  | indirect | indirectX | indirectY | relative | accumulator | implied
deriving DecidableEq, Repr

/-- `kind` of R84: one of the 56 mnemonics of R86, or `Unimplemented`. -/
inductive Kind where
  | lda | ldx | ldy | sta | stx | sty | tax | tay | txa | tya | tsx | txs
  | adc | sbc | inc | dec | inx | iny | dex | dey | and | ora | eor | bit
  | asl | lsr | rol | ror | cmp | cpx | cpy | bpl | bmi | bvc | bvs | bcc
  | bcs | bne | beq | jmp | jsr | rts | pha | pla | php | plp | brk | rti
  | nop | clc | sec | cli | sei | clv | cld | sed
  | unimplemented
deriving DecidableEq, Repr

/-- The instructions. -/
inductive Instr where
  | ldaImmediate (nn : Byte)
  | ldaZeroPage (nn : Byte)
  | ldaZeroPageX (nn : Byte)
  | ldaAbsolute (hhll : Word)
  | ldaAbsoluteX (hhll : Word)
  | ldaAbsoluteY (hhll : Word)
  | ldaIndirectX (nn : Byte)
  | ldaIndirectY (nn : Byte)
  | ldxImmediate (nn : Byte)
  | ldxZeroPage (nn : Byte)
  | ldxZeroPageY (nn : Byte)
  | ldxAbsolute (hhll : Word)
  | ldxAbsoluteY (hhll : Word)
  | ldyImmediate (nn : Byte)
  | ldyZeroPage (nn : Byte)
  | ldyZeroPageX (nn : Byte)
  | ldyAbsolute (hhll : Word)
  | ldyAbsoluteX (hhll : Word)
  | staZeroPage (nn : Byte)
  | staZeroPageX (nn : Byte)
  | staAbsolute (hhll : Word)
  | staAbsoluteX (hhll : Word)
  | staAbsoluteY (hhll : Word)
  | staIndirectX (nn : Byte)
  | staIndirectY (nn : Byte)
  | stxZeroPage (nn : Byte)
  | stxZeroPageY (nn : Byte)
  | stxAbsolute (hhll : Word)
  | styZeroPage (nn : Byte)
  | styZeroPageX (nn : Byte)
  | styAbsolute (hhll : Word)
  | tax
  | tay
  | txa
  | tya
  | tsx
  | txs
  | adcImmediate (nn : Byte)
  | adcZeroPage (nn : Byte)
  | adcZeroPageX (nn : Byte)
  | adcAbsolute (hhll : Word)
  | adcAbsoluteX (hhll : Word)
  | adcAbsoluteY (hhll : Word)
  | adcIndirectX (nn : Byte)
  | adcIndirectY (nn : Byte)
  | sbcImmediate (nn : Byte)
  | sbcZeroPage (nn : Byte)
  | sbcZeroPageX (nn : Byte)
  | sbcAbsolute (hhll : Word)
  | sbcAbsoluteX (hhll : Word)
  | sbcAbsoluteY (hhll : Word)
  | sbcIndirectX (nn : Byte)
  | sbcIndirectY (nn : Byte)
  | incZeroPage (nn : Byte)
  | incZeroPageX (nn : Byte)
  | incAbsolute (hhll : Word)
  | incAbsoluteX (hhll : Word)
  | decZeroPage (nn : Byte)
  | decZeroPageX (nn : Byte)
  | decAbsolute (hhll : Word)
  | decAbsoluteX (hhll : Word)
  | inx
  | iny
  | dex
  | dey
  | andImmediate (nn : Byte)
  | andZeroPage (nn : Byte)
  | andZeroPageX (nn : Byte)
  | andAbsolute (hhll : Word)
  | andAbsoluteX (hhll : Word)
  | andAbsoluteY (hhll : Word)
  | andIndirectX (nn : Byte)
  | andIndirectY (nn : Byte)
  | oraImmediate (nn : Byte)
  | oraZeroPage (nn : Byte)
  | oraZeroPageX (nn : Byte)
  | oraAbsolute (hhll : Word)
  | oraAbsoluteX (hhll : Word)
  | oraAbsoluteY (hhll : Word)
  | oraIndirectX (nn : Byte)
  | oraIndirectY (nn : Byte)
  | eorImmediate (nn : Byte)
  | eorZeroPage (nn : Byte)
  | eorZeroPageX (nn : Byte)
  | eorAbsolute (hhll : Word)
  | eorAbsoluteX (hhll : Word)
  | eorAbsoluteY (hhll : Word)
  | eorIndirectX (nn : Byte)
  | eorIndirectY (nn : Byte)
  | bitZeroPage (nn : Byte)
  | bitAbsolute (hhll : Word)
  | aslZeroPage (nn : Byte)
  | aslZeroPageX (nn : Byte)
  | aslAbsolute (hhll : Word)
  | aslAbsoluteX (hhll : Word)
  | aslAccumulator
  | lsrZeroPage (nn : Byte)
  | lsrZeroPageX (nn : Byte)
  | lsrAbsolute (hhll : Word)
  | lsrAbsoluteX (hhll : Word)
  | lsrAccumulator
  | rolZeroPage (nn : Byte)
  | rolZeroPageX (nn : Byte)
  | rolAbsolute (hhll : Word)
  | rolAbsoluteX (hhll : Word)
  | rolAccumulator
  | rorZeroPage (nn : Byte)
  | rorZeroPageX (nn : Byte)
  | rorAbsolute (hhll : Word)
  | rorAbsoluteX (hhll : Word)
  | rorAccumulator
  | cmpImmediate (nn : Byte)
  | cmpZeroPage (nn : Byte)
  | cmpZeroPageX (nn : Byte)
  | cmpAbsolute (hhll : Word)
  | cmpAbsoluteX (hhll : Word)
  | cmpAbsoluteY (hhll : Word)
  | cmpIndirectX (nn : Byte)
  | cmpIndirectY (nn : Byte)
  | cpxImmediate (nn : Byte)
  | cpxZeroPage (nn : Byte)
  | cpxAbsolute (hhll : Word)
  | cpyImmediate (nn : Byte)
  | cpyZeroPage (nn : Byte)
  | cpyAbsolute (hhll : Word)
  | bpl (nn : Byte)
  | bmi (nn : Byte)
  | bvc (nn : Byte)
  | bvs (nn : Byte)
  | bcc (nn : Byte)
  | bcs (nn : Byte)
  | bne (nn : Byte)
  | beq (nn : Byte)
  | jmpAbsolute (hhll : Word)
  | jmpIndirect (hhll : Word)
  | jsr (hhll : Word)
  | rts
  | pha
  | pla
  | php
  | plp
  | brk
  | rti
  | nop
  | clc
  | sec
  | cli
  | sei
  | clv
  | cld
  | sed
  /-- one of the 105 opcode bytes of R88 -/
  | unimplemented (opcode : Byte)
deriving DecidableEq, Repr

end Sys2Proof
end

