-- ==== Sys2Proof/WellFormed.lean ====
section
/-! DEFINITION. Which terms of `Instr` are instructions: every operand value is legal (30_encoding.md R89), and the
`Unimplemented` variant holds one of the 105 bytes of R88. -/

namespace Sys2Proof

/-- The 105 undocumented opcode bytes, in the order R88 lists them. -/
def undocumentedOpcodes : List Byte :=
  [0x02, 0x03, 0x04, 0x07, 0x0B, 0x0C, 0x0F, 0x12, 0x13, 0x14, 0x17, 0x1A, 0x1B, 0x1C, 0x1F] ++
  [0x22, 0x23, 0x27, 0x2B, 0x2F, 0x32, 0x33, 0x34, 0x37, 0x3A, 0x3B, 0x3C, 0x3F, 0x42, 0x43] ++
  [0x44, 0x47, 0x4B, 0x4F, 0x52, 0x53, 0x54, 0x57, 0x5A, 0x5B, 0x5C, 0x5F, 0x62, 0x63, 0x64] ++
  [0x67, 0x6B, 0x6F, 0x72, 0x73, 0x74, 0x77, 0x7A, 0x7B, 0x7C, 0x7F, 0x80, 0x82, 0x83, 0x87] ++
  [0x89, 0x8B, 0x8F, 0x92, 0x93, 0x97, 0x9B, 0x9C, 0x9E, 0x9F, 0xA3, 0xA7, 0xAB, 0xAF, 0xB2] ++
  [0xB3, 0xB7, 0xBB, 0xBF, 0xC2, 0xC3, 0xC7, 0xCB, 0xCF, 0xD2, 0xD3, 0xD4, 0xD7, 0xDA, 0xDB] ++
  [0xDC, 0xDF, 0xE2, 0xE3, 0xE7, 0xEB, 0xEF, 0xF2, 0xF3, 0xF4, 0xF7, 0xFA, 0xFB, 0xFC, 0xFF]

/-- The check. -/
def Instr.wellFormed : Instr → Bool
  | .ldaImmediate _ => true
  | .ldaZeroPage _ => true
  | .ldaZeroPageX _ => true
  | .ldaAbsolute _ => true
  | .ldaAbsoluteX _ => true
  | .ldaAbsoluteY _ => true
  | .ldaIndirectX _ => true
  | .ldaIndirectY _ => true
  | .ldxImmediate _ => true
  | .ldxZeroPage _ => true
  | .ldxZeroPageY _ => true
  | .ldxAbsolute _ => true
  | .ldxAbsoluteY _ => true
  | .ldyImmediate _ => true
  | .ldyZeroPage _ => true
  | .ldyZeroPageX _ => true
  | .ldyAbsolute _ => true
  | .ldyAbsoluteX _ => true
  | .staZeroPage _ => true
  | .staZeroPageX _ => true
  | .staAbsolute _ => true
  | .staAbsoluteX _ => true
  | .staAbsoluteY _ => true
  | .staIndirectX _ => true
  | .staIndirectY _ => true
  | .stxZeroPage _ => true
  | .stxZeroPageY _ => true
  | .stxAbsolute _ => true
  | .styZeroPage _ => true
  | .styZeroPageX _ => true
  | .styAbsolute _ => true
  | .tax => true
  | .tay => true
  | .txa => true
  | .tya => true
  | .tsx => true
  | .txs => true
  | .adcImmediate _ => true
  | .adcZeroPage _ => true
  | .adcZeroPageX _ => true
  | .adcAbsolute _ => true
  | .adcAbsoluteX _ => true
  | .adcAbsoluteY _ => true
  | .adcIndirectX _ => true
  | .adcIndirectY _ => true
  | .sbcImmediate _ => true
  | .sbcZeroPage _ => true
  | .sbcZeroPageX _ => true
  | .sbcAbsolute _ => true
  | .sbcAbsoluteX _ => true
  | .sbcAbsoluteY _ => true
  | .sbcIndirectX _ => true
  | .sbcIndirectY _ => true
  | .incZeroPage _ => true
  | .incZeroPageX _ => true
  | .incAbsolute _ => true
  | .incAbsoluteX _ => true
  | .decZeroPage _ => true
  | .decZeroPageX _ => true
  | .decAbsolute _ => true
  | .decAbsoluteX _ => true
  | .inx => true
  | .iny => true
  | .dex => true
  | .dey => true
  | .andImmediate _ => true
  | .andZeroPage _ => true
  | .andZeroPageX _ => true
  | .andAbsolute _ => true
  | .andAbsoluteX _ => true
  | .andAbsoluteY _ => true
  | .andIndirectX _ => true
  | .andIndirectY _ => true
  | .oraImmediate _ => true
  | .oraZeroPage _ => true
  | .oraZeroPageX _ => true
  | .oraAbsolute _ => true
  | .oraAbsoluteX _ => true
  | .oraAbsoluteY _ => true
  | .oraIndirectX _ => true
  | .oraIndirectY _ => true
  | .eorImmediate _ => true
  | .eorZeroPage _ => true
  | .eorZeroPageX _ => true
  | .eorAbsolute _ => true
  | .eorAbsoluteX _ => true
  | .eorAbsoluteY _ => true
  | .eorIndirectX _ => true
  | .eorIndirectY _ => true
  | .bitZeroPage _ => true
  | .bitAbsolute _ => true
  | .aslZeroPage _ => true
  | .aslZeroPageX _ => true
  | .aslAbsolute _ => true
  | .aslAbsoluteX _ => true
  | .aslAccumulator => true
  | .lsrZeroPage _ => true
  | .lsrZeroPageX _ => true
  | .lsrAbsolute _ => true
  | .lsrAbsoluteX _ => true
  | .lsrAccumulator => true
  | .rolZeroPage _ => true
  | .rolZeroPageX _ => true
  | .rolAbsolute _ => true
  | .rolAbsoluteX _ => true
  | .rolAccumulator => true
  | .rorZeroPage _ => true
  | .rorZeroPageX _ => true
  | .rorAbsolute _ => true
  | .rorAbsoluteX _ => true
  | .rorAccumulator => true
  | .cmpImmediate _ => true
  | .cmpZeroPage _ => true
  | .cmpZeroPageX _ => true
  | .cmpAbsolute _ => true
  | .cmpAbsoluteX _ => true
  | .cmpAbsoluteY _ => true
  | .cmpIndirectX _ => true
  | .cmpIndirectY _ => true
  | .cpxImmediate _ => true
  | .cpxZeroPage _ => true
  | .cpxAbsolute _ => true
  | .cpyImmediate _ => true
  | .cpyZeroPage _ => true
  | .cpyAbsolute _ => true
  | .bpl _ => true
  | .bmi _ => true
  | .bvc _ => true
  | .bvs _ => true
  | .bcc _ => true
  | .bcs _ => true
  | .bne _ => true
  | .beq _ => true
  | .jmpAbsolute _ => true
  | .jmpIndirect _ => true
  | .jsr _ => true
  | .rts => true
  | .pha => true
  | .pla => true
  | .php => true
  | .plp => true
  | .brk => true
  | .rti => true
  | .nop => true
  | .clc => true
  | .sec => true
  | .cli => true
  | .sei => true
  | .clv => true
  | .cld => true
  | .sed => true
  | .unimplemented opcode => undocumentedOpcodes.contains opcode

/-- An instruction as the spec has it. -/
abbrev Instr.WellFormed (i : Instr) : Prop := i.wellFormed = true

end Sys2Proof
end

