-- ==== Sys2Proof/Decode.lean ====
section
/-! DEFINITION. The decoder (30_encoding.md): the table of R86, the lookup of R84, decoding of bytes, and the encoder.
Byte-order and extension helpers of 00_scope.md R8, R10, R16 stand here too. -/

namespace Sys2Proof

/-! ### Bytes and words -/

/-- `lo(w)` (R8). -/
def loByte (w : Word) : Byte := w.extractLsb' 0 8

/-- `hi(w)` (R8). -/
def hiByte (w : Word) : Byte := w.extractLsb' 8 8

/-- `{h, l}` (R8): the low byte is the one at the lower address wherever memory is read (20_memory.md R55). -/
def joinBytes (h l : Byte) : Word := h ++ l

/-- `zext_16(b)` (R10). -/
def zeroExtend16 (b : Byte) : Word := b.setWidth 16

/-- `sext_16(b)` (R10). -/
def signExtend16 (b : Byte) : Word := b.signExtend 16

/-- `PageDiff(a, b)` (R16). -/
def pageDiff (a b : Word) : Bool := hiByte a != hiByte b

/-! ### The table -/

/-- The operand width of a mode in bytes (R83). -/
def Mode.width : Mode → Nat
  | .implied => 0
  | .accumulator => 0
  | .immediate => 1
  | .zeroPage => 1
  | .zeroPageX => 1
  | .zeroPageY => 1
  | .relative => 1
  | .indirectX => 1
  | .indirectY => 1
  | .absolute => 2
  | .absoluteX => 2
  | .absoluteY => 2
  | .indirect => 2

/-- The decoder's entry for an opcode byte (R84). -/
structure InstructionSpec where
  kind : Kind
  mode : Mode
  baseCycles : Nat
  pageCrossAddsCycle : Bool
  documented : Bool
deriving DecidableEq, Repr

/-- `length(opcode) = 1 + width(mode(opcode))` (R81). -/
def InstructionSpec.length (spec : InstructionSpec) : Nat := 1 + spec.mode.width

/-- The three formats of R80, each with what the operand bytes make. -/
inductive Format where
  | f1 (i : Instr)
  | f2 (make : Byte → Instr)
  | f3 (make : Word → Instr)

/-- A row of the opcode map. -/
structure OpcodeRow where
  opcode : Byte
  kind : Kind
  mode : Mode
  baseCycles : Nat
  pageCross : Bool
  format : Format

/-- R86, opcode bytes 0x00 to 0x0F. -/
def rows0x : List OpcodeRow :=
  [ ⟨0x00, .brk, .implied, 7, false, .f1 .brk⟩,
    ⟨0x01, .ora, .indirectX, 6, false, .f2 .oraIndirectX⟩,
    ⟨0x05, .ora, .zeroPage, 3, false, .f2 .oraZeroPage⟩,
    ⟨0x06, .asl, .zeroPage, 5, false, .f2 .aslZeroPage⟩,
    ⟨0x08, .php, .implied, 3, false, .f1 .php⟩,
    ⟨0x09, .ora, .immediate, 2, false, .f2 .oraImmediate⟩,
    ⟨0x0A, .asl, .accumulator, 2, false, .f1 .aslAccumulator⟩,
    ⟨0x0D, .ora, .absolute, 4, false, .f3 .oraAbsolute⟩,
    ⟨0x0E, .asl, .absolute, 6, false, .f3 .aslAbsolute⟩ ]

/-- R86, opcode bytes 0x10 to 0x1F. -/
def rows1x : List OpcodeRow :=
  [ ⟨0x10, .bpl, .relative, 2, false, .f2 .bpl⟩,
    ⟨0x11, .ora, .indirectY, 5, true, .f2 .oraIndirectY⟩,
    ⟨0x15, .ora, .zeroPageX, 4, false, .f2 .oraZeroPageX⟩,
    ⟨0x16, .asl, .zeroPageX, 6, false, .f2 .aslZeroPageX⟩,
    ⟨0x18, .clc, .implied, 2, false, .f1 .clc⟩,
    ⟨0x19, .ora, .absoluteY, 4, true, .f3 .oraAbsoluteY⟩,
    ⟨0x1D, .ora, .absoluteX, 4, true, .f3 .oraAbsoluteX⟩,
    ⟨0x1E, .asl, .absoluteX, 7, false, .f3 .aslAbsoluteX⟩ ]

/-- R86, opcode bytes 0x20 to 0x2F. -/
def rows2x : List OpcodeRow :=
  [ ⟨0x20, .jsr, .absolute, 6, false, .f3 .jsr⟩,
    ⟨0x21, .and, .indirectX, 6, false, .f2 .andIndirectX⟩,
    ⟨0x24, .bit, .zeroPage, 3, false, .f2 .bitZeroPage⟩,
    ⟨0x25, .and, .zeroPage, 3, false, .f2 .andZeroPage⟩,
    ⟨0x26, .rol, .zeroPage, 5, false, .f2 .rolZeroPage⟩,
    ⟨0x28, .plp, .implied, 4, false, .f1 .plp⟩,
    ⟨0x29, .and, .immediate, 2, false, .f2 .andImmediate⟩,
    ⟨0x2A, .rol, .accumulator, 2, false, .f1 .rolAccumulator⟩,
    ⟨0x2C, .bit, .absolute, 4, false, .f3 .bitAbsolute⟩,
    ⟨0x2D, .and, .absolute, 4, false, .f3 .andAbsolute⟩,
    ⟨0x2E, .rol, .absolute, 6, false, .f3 .rolAbsolute⟩ ]

/-- R86, opcode bytes 0x30 to 0x3F. -/
def rows3x : List OpcodeRow :=
  [ ⟨0x30, .bmi, .relative, 2, false, .f2 .bmi⟩,
    ⟨0x31, .and, .indirectY, 5, true, .f2 .andIndirectY⟩,
    ⟨0x35, .and, .zeroPageX, 4, false, .f2 .andZeroPageX⟩,
    ⟨0x36, .rol, .zeroPageX, 6, false, .f2 .rolZeroPageX⟩,
    ⟨0x38, .sec, .implied, 2, false, .f1 .sec⟩,
    ⟨0x39, .and, .absoluteY, 4, true, .f3 .andAbsoluteY⟩,
    ⟨0x3D, .and, .absoluteX, 4, true, .f3 .andAbsoluteX⟩,
    ⟨0x3E, .rol, .absoluteX, 7, false, .f3 .rolAbsoluteX⟩ ]

/-- R86, opcode bytes 0x40 to 0x4F. -/
def rows4x : List OpcodeRow :=
  [ ⟨0x40, .rti, .implied, 6, false, .f1 .rti⟩,
    ⟨0x41, .eor, .indirectX, 6, false, .f2 .eorIndirectX⟩,
    ⟨0x45, .eor, .zeroPage, 3, false, .f2 .eorZeroPage⟩,
    ⟨0x46, .lsr, .zeroPage, 5, false, .f2 .lsrZeroPage⟩,
    ⟨0x48, .pha, .implied, 3, false, .f1 .pha⟩,
    ⟨0x49, .eor, .immediate, 2, false, .f2 .eorImmediate⟩,
    ⟨0x4A, .lsr, .accumulator, 2, false, .f1 .lsrAccumulator⟩,
    ⟨0x4C, .jmp, .absolute, 3, false, .f3 .jmpAbsolute⟩,
    ⟨0x4D, .eor, .absolute, 4, false, .f3 .eorAbsolute⟩,
    ⟨0x4E, .lsr, .absolute, 6, false, .f3 .lsrAbsolute⟩ ]

/-- R86, opcode bytes 0x50 to 0x5F. -/
def rows5x : List OpcodeRow :=
  [ ⟨0x50, .bvc, .relative, 2, false, .f2 .bvc⟩,
    ⟨0x51, .eor, .indirectY, 5, true, .f2 .eorIndirectY⟩,
    ⟨0x55, .eor, .zeroPageX, 4, false, .f2 .eorZeroPageX⟩,
    ⟨0x56, .lsr, .zeroPageX, 6, false, .f2 .lsrZeroPageX⟩,
    ⟨0x58, .cli, .implied, 2, false, .f1 .cli⟩,
    ⟨0x59, .eor, .absoluteY, 4, true, .f3 .eorAbsoluteY⟩,
    ⟨0x5D, .eor, .absoluteX, 4, true, .f3 .eorAbsoluteX⟩,
    ⟨0x5E, .lsr, .absoluteX, 7, false, .f3 .lsrAbsoluteX⟩ ]

/-- R86, opcode bytes 0x60 to 0x6F. -/
def rows6x : List OpcodeRow :=
  [ ⟨0x60, .rts, .implied, 6, false, .f1 .rts⟩,
    ⟨0x61, .adc, .indirectX, 6, false, .f2 .adcIndirectX⟩,
    ⟨0x65, .adc, .zeroPage, 3, false, .f2 .adcZeroPage⟩,
    ⟨0x66, .ror, .zeroPage, 5, false, .f2 .rorZeroPage⟩,
    ⟨0x68, .pla, .implied, 4, false, .f1 .pla⟩,
    ⟨0x69, .adc, .immediate, 2, false, .f2 .adcImmediate⟩,
    ⟨0x6A, .ror, .accumulator, 2, false, .f1 .rorAccumulator⟩,
    ⟨0x6C, .jmp, .indirect, 5, false, .f3 .jmpIndirect⟩,
    ⟨0x6D, .adc, .absolute, 4, false, .f3 .adcAbsolute⟩,
    ⟨0x6E, .ror, .absolute, 6, false, .f3 .rorAbsolute⟩ ]

/-- R86, opcode bytes 0x70 to 0x7F. -/
def rows7x : List OpcodeRow :=
  [ ⟨0x70, .bvs, .relative, 2, false, .f2 .bvs⟩,
    ⟨0x71, .adc, .indirectY, 5, true, .f2 .adcIndirectY⟩,
    ⟨0x75, .adc, .zeroPageX, 4, false, .f2 .adcZeroPageX⟩,
    ⟨0x76, .ror, .zeroPageX, 6, false, .f2 .rorZeroPageX⟩,
    ⟨0x78, .sei, .implied, 2, false, .f1 .sei⟩,
    ⟨0x79, .adc, .absoluteY, 4, true, .f3 .adcAbsoluteY⟩,
    ⟨0x7D, .adc, .absoluteX, 4, true, .f3 .adcAbsoluteX⟩,
    ⟨0x7E, .ror, .absoluteX, 7, false, .f3 .rorAbsoluteX⟩ ]

/-- R86, opcode bytes 0x80 to 0x8F. -/
def rows8x : List OpcodeRow :=
  [ ⟨0x81, .sta, .indirectX, 6, false, .f2 .staIndirectX⟩,
    ⟨0x84, .sty, .zeroPage, 3, false, .f2 .styZeroPage⟩,
    ⟨0x85, .sta, .zeroPage, 3, false, .f2 .staZeroPage⟩,
    ⟨0x86, .stx, .zeroPage, 3, false, .f2 .stxZeroPage⟩,
    ⟨0x88, .dey, .implied, 2, false, .f1 .dey⟩,
    ⟨0x8A, .txa, .implied, 2, false, .f1 .txa⟩,
    ⟨0x8C, .sty, .absolute, 4, false, .f3 .styAbsolute⟩,
    ⟨0x8D, .sta, .absolute, 4, false, .f3 .staAbsolute⟩,
    ⟨0x8E, .stx, .absolute, 4, false, .f3 .stxAbsolute⟩ ]

/-- R86, opcode bytes 0x90 to 0x9F. -/
def rows9x : List OpcodeRow :=
  [ ⟨0x90, .bcc, .relative, 2, false, .f2 .bcc⟩,
    ⟨0x91, .sta, .indirectY, 6, false, .f2 .staIndirectY⟩,
    ⟨0x94, .sty, .zeroPageX, 4, false, .f2 .styZeroPageX⟩,
    ⟨0x95, .sta, .zeroPageX, 4, false, .f2 .staZeroPageX⟩,
    ⟨0x96, .stx, .zeroPageY, 4, false, .f2 .stxZeroPageY⟩,
    ⟨0x98, .tya, .implied, 2, false, .f1 .tya⟩,
    ⟨0x99, .sta, .absoluteY, 5, false, .f3 .staAbsoluteY⟩,
    ⟨0x9A, .txs, .implied, 2, false, .f1 .txs⟩,
    ⟨0x9D, .sta, .absoluteX, 5, false, .f3 .staAbsoluteX⟩ ]

/-- R86, opcode bytes 0xA0 to 0xAF. -/
def rowsAx : List OpcodeRow :=
  [ ⟨0xA0, .ldy, .immediate, 2, false, .f2 .ldyImmediate⟩,
    ⟨0xA1, .lda, .indirectX, 6, false, .f2 .ldaIndirectX⟩,
    ⟨0xA2, .ldx, .immediate, 2, false, .f2 .ldxImmediate⟩,
    ⟨0xA4, .ldy, .zeroPage, 3, false, .f2 .ldyZeroPage⟩,
    ⟨0xA5, .lda, .zeroPage, 3, false, .f2 .ldaZeroPage⟩,
    ⟨0xA6, .ldx, .zeroPage, 3, false, .f2 .ldxZeroPage⟩,
    ⟨0xA8, .tay, .implied, 2, false, .f1 .tay⟩,
    ⟨0xA9, .lda, .immediate, 2, false, .f2 .ldaImmediate⟩,
    ⟨0xAA, .tax, .implied, 2, false, .f1 .tax⟩,
    ⟨0xAC, .ldy, .absolute, 4, false, .f3 .ldyAbsolute⟩,
    ⟨0xAD, .lda, .absolute, 4, false, .f3 .ldaAbsolute⟩,
    ⟨0xAE, .ldx, .absolute, 4, false, .f3 .ldxAbsolute⟩ ]

/-- R86, opcode bytes 0xB0 to 0xBF. -/
def rowsBx : List OpcodeRow :=
  [ ⟨0xB0, .bcs, .relative, 2, false, .f2 .bcs⟩,
    ⟨0xB1, .lda, .indirectY, 5, true, .f2 .ldaIndirectY⟩,
    ⟨0xB4, .ldy, .zeroPageX, 4, false, .f2 .ldyZeroPageX⟩,
    ⟨0xB5, .lda, .zeroPageX, 4, false, .f2 .ldaZeroPageX⟩,
    ⟨0xB6, .ldx, .zeroPageY, 4, false, .f2 .ldxZeroPageY⟩,
    ⟨0xB8, .clv, .implied, 2, false, .f1 .clv⟩,
    ⟨0xB9, .lda, .absoluteY, 4, true, .f3 .ldaAbsoluteY⟩,
    ⟨0xBA, .tsx, .implied, 2, false, .f1 .tsx⟩,
    ⟨0xBC, .ldy, .absoluteX, 4, true, .f3 .ldyAbsoluteX⟩,
    ⟨0xBD, .lda, .absoluteX, 4, true, .f3 .ldaAbsoluteX⟩,
    ⟨0xBE, .ldx, .absoluteY, 4, true, .f3 .ldxAbsoluteY⟩ ]

/-- R86, opcode bytes 0xC0 to 0xCF. -/
def rowsCx : List OpcodeRow :=
  [ ⟨0xC0, .cpy, .immediate, 2, false, .f2 .cpyImmediate⟩,
    ⟨0xC1, .cmp, .indirectX, 6, false, .f2 .cmpIndirectX⟩,
    ⟨0xC4, .cpy, .zeroPage, 3, false, .f2 .cpyZeroPage⟩,
    ⟨0xC5, .cmp, .zeroPage, 3, false, .f2 .cmpZeroPage⟩,
    ⟨0xC6, .dec, .zeroPage, 5, false, .f2 .decZeroPage⟩,
    ⟨0xC8, .iny, .implied, 2, false, .f1 .iny⟩,
    ⟨0xC9, .cmp, .immediate, 2, false, .f2 .cmpImmediate⟩,
    ⟨0xCA, .dex, .implied, 2, false, .f1 .dex⟩,
    ⟨0xCC, .cpy, .absolute, 4, false, .f3 .cpyAbsolute⟩,
    ⟨0xCD, .cmp, .absolute, 4, false, .f3 .cmpAbsolute⟩,
    ⟨0xCE, .dec, .absolute, 6, false, .f3 .decAbsolute⟩ ]

/-- R86, opcode bytes 0xD0 to 0xDF. -/
def rowsDx : List OpcodeRow :=
  [ ⟨0xD0, .bne, .relative, 2, false, .f2 .bne⟩,
    ⟨0xD1, .cmp, .indirectY, 5, true, .f2 .cmpIndirectY⟩,
    ⟨0xD5, .cmp, .zeroPageX, 4, false, .f2 .cmpZeroPageX⟩,
    ⟨0xD6, .dec, .zeroPageX, 6, false, .f2 .decZeroPageX⟩,
    ⟨0xD8, .cld, .implied, 2, false, .f1 .cld⟩,
    ⟨0xD9, .cmp, .absoluteY, 4, true, .f3 .cmpAbsoluteY⟩,
    ⟨0xDD, .cmp, .absoluteX, 4, true, .f3 .cmpAbsoluteX⟩,
    ⟨0xDE, .dec, .absoluteX, 7, false, .f3 .decAbsoluteX⟩ ]

/-- R86, opcode bytes 0xE0 to 0xEF. -/
def rowsEx : List OpcodeRow :=
  [ ⟨0xE0, .cpx, .immediate, 2, false, .f2 .cpxImmediate⟩,
    ⟨0xE1, .sbc, .indirectX, 6, false, .f2 .sbcIndirectX⟩,
    ⟨0xE4, .cpx, .zeroPage, 3, false, .f2 .cpxZeroPage⟩,
    ⟨0xE5, .sbc, .zeroPage, 3, false, .f2 .sbcZeroPage⟩,
    ⟨0xE6, .inc, .zeroPage, 5, false, .f2 .incZeroPage⟩,
    ⟨0xE8, .inx, .implied, 2, false, .f1 .inx⟩,
    ⟨0xE9, .sbc, .immediate, 2, false, .f2 .sbcImmediate⟩,
    ⟨0xEA, .nop, .implied, 2, false, .f1 .nop⟩,
    ⟨0xEC, .cpx, .absolute, 4, false, .f3 .cpxAbsolute⟩,
    ⟨0xED, .sbc, .absolute, 4, false, .f3 .sbcAbsolute⟩,
    ⟨0xEE, .inc, .absolute, 6, false, .f3 .incAbsolute⟩ ]

/-- R86, opcode bytes 0xF0 to 0xFF. -/
def rowsFx : List OpcodeRow :=
  [ ⟨0xF0, .beq, .relative, 2, false, .f2 .beq⟩,
    ⟨0xF1, .sbc, .indirectY, 5, true, .f2 .sbcIndirectY⟩,
    ⟨0xF5, .sbc, .zeroPageX, 4, false, .f2 .sbcZeroPageX⟩,
    ⟨0xF6, .inc, .zeroPageX, 6, false, .f2 .incZeroPageX⟩,
    ⟨0xF8, .sed, .implied, 2, false, .f1 .sed⟩,
    ⟨0xF9, .sbc, .absoluteY, 4, true, .f3 .sbcAbsoluteY⟩,
    ⟨0xFD, .sbc, .absoluteX, 4, true, .f3 .sbcAbsoluteX⟩,
    ⟨0xFE, .inc, .absoluteX, 7, false, .f3 .incAbsoluteX⟩ ]

/-- The documented opcode map: 151 bytes (R86). -/
def opcodeMap : List OpcodeRow :=
  rows0x ++ rows1x ++ rows2x ++ rows3x ++
  rows4x ++ rows5x ++ rows6x ++ rows7x ++
  rows8x ++ rows9x ++ rowsAx ++ rowsBx ++
  rowsCx ++ rowsDx ++ rowsEx ++ rowsFx

/-- The piece of the map that lists an opcode byte, if any lists it: the pieces go by the byte's high digit. -/
def pieceOf (opcode : Byte) : List OpcodeRow :=
  match opcode.toNat / 16 with
  | 0 => rows0x
  | 1 => rows1x
  | 2 => rows2x
  | 3 => rows3x
  | 4 => rows4x
  | 5 => rows5x
  | 6 => rows6x
  | 7 => rows7x
  | 8 => rows8x
  | 9 => rows9x
  | 10 => rowsAx
  | 11 => rowsBx
  | 12 => rowsCx
  | 13 => rowsDx
  | 14 => rowsEx
  | _ => rowsFx

/-- The row of an opcode byte; none for the 105 bytes of R88. -/
def findRow (opcode : Byte) : Option OpcodeRow := (pieceOf opcode).find? fun r => r.opcode == opcode

/-- `decode(opcode)` of R84: total on the 256 bytes (R85), the `Unimplemented` entry for the others (R88). -/
def decodeSpec (opcode : Byte) : InstructionSpec :=
  match findRow opcode with
  | some r => ⟨r.kind, r.mode, r.baseCycles, r.pageCross, true⟩
  | none => ⟨.unimplemented, .implied, 0, false, false⟩

/-- The format of an opcode byte. An undocumented byte is an instruction of that one byte, which faults (R88). -/
def formatOf (opcode : Byte) : Format :=
  match findRow opcode with
  | some r => r.format
  | none => .f1 (.unimplemented opcode)

/-! ### Decoding -/

/-- The instruction with this opcode byte and the bytes after it (R80, R82: `ll` then `hh`). Bytes it has no use for
play no part. -/
def decodeBytes (opcode byte1 byte2 : Byte) : Instr :=
  match formatOf opcode with
  | .f1 i => i
  | .f2 make => make byte1
  | .f3 make => make (joinBytes byte2 byte1)

/-- Why a list of bytes holds no instruction. -/
inductive DecodeError where
  | noBytes
  | missingOperand (opcode : Byte)
deriving DecidableEq, Repr

/-- The first instruction of a list of bytes and the bytes after it, or why there is none. -/
inductive Decoded where
  | instr (i : Instr) (rest : List Byte)
  | rejected (why : DecodeError)
deriving DecidableEq, Repr

/-- Decoding of any list of bytes. -/
def decode : List Byte → Decoded
  | [] => .rejected .noBytes
  | opcode :: rest =>
    match formatOf opcode, rest with
    | .f1 i, rest => .instr i rest
    | .f2 make, nn :: rest => .instr (make nn) rest
    | .f2 _, [] => .rejected (.missingOperand opcode)
    | .f3 make, ll :: hh :: rest => .instr (make (joinBytes hh ll)) rest
    | .f3 _, [_] => .rejected (.missingOperand opcode)
    | .f3 _, [] => .rejected (.missingOperand opcode)

/-- The three bytes of a table word of `nbits` bits, first byte lowest; the bits above `nbits` are 0. -/
def tableBytes (nbits w : Nat) : List Byte :=
  let v := w % 2 ^ nbits
  [BitVec.ofNat 8 v, BitVec.ofNat 8 (v / 256), BitVec.ofNat 8 (v / 65536)]

/-- What the decoder reads from a table word. -/
def decodeTableWord (nbits w : Nat) : Option Instr :=
  match decode (tableBytes nbits w) with
  | .instr i _ => some i
  | .rejected _ => none

/-! ### Encoding -/

/-- The bytes of an F2 instruction (R80). -/
def encodeF2 (opcode nn : Byte) : List Byte := [opcode, nn]

/-- The bytes of an F3 instruction (R80, R82): low operand byte first. -/
def encodeF3 (opcode : Byte) (hhll : Word) : List Byte := [opcode, loByte hhll, hiByte hhll]

/-- The bytes of an instruction, each opcode byte as R86 has it. -/
def encode : Instr → List Byte
  | .ldaImmediate nn => encodeF2 0xA9 nn
  | .ldaZeroPage nn => encodeF2 0xA5 nn
  | .ldaZeroPageX nn => encodeF2 0xB5 nn
  | .ldaAbsolute hhll => encodeF3 0xAD hhll
  | .ldaAbsoluteX hhll => encodeF3 0xBD hhll
  | .ldaAbsoluteY hhll => encodeF3 0xB9 hhll
  | .ldaIndirectX nn => encodeF2 0xA1 nn
  | .ldaIndirectY nn => encodeF2 0xB1 nn
  | .ldxImmediate nn => encodeF2 0xA2 nn
  | .ldxZeroPage nn => encodeF2 0xA6 nn
  | .ldxZeroPageY nn => encodeF2 0xB6 nn
  | .ldxAbsolute hhll => encodeF3 0xAE hhll
  | .ldxAbsoluteY hhll => encodeF3 0xBE hhll
  | .ldyImmediate nn => encodeF2 0xA0 nn
  | .ldyZeroPage nn => encodeF2 0xA4 nn
  | .ldyZeroPageX nn => encodeF2 0xB4 nn
  | .ldyAbsolute hhll => encodeF3 0xAC hhll
  | .ldyAbsoluteX hhll => encodeF3 0xBC hhll
  | .staZeroPage nn => encodeF2 0x85 nn
  | .staZeroPageX nn => encodeF2 0x95 nn
  | .staAbsolute hhll => encodeF3 0x8D hhll
  | .staAbsoluteX hhll => encodeF3 0x9D hhll
  | .staAbsoluteY hhll => encodeF3 0x99 hhll
  | .staIndirectX nn => encodeF2 0x81 nn
  | .staIndirectY nn => encodeF2 0x91 nn
  | .stxZeroPage nn => encodeF2 0x86 nn
  | .stxZeroPageY nn => encodeF2 0x96 nn
  | .stxAbsolute hhll => encodeF3 0x8E hhll
  | .styZeroPage nn => encodeF2 0x84 nn
  | .styZeroPageX nn => encodeF2 0x94 nn
  | .styAbsolute hhll => encodeF3 0x8C hhll
  | .tax => [0xAA]
  | .tay => [0xA8]
  | .txa => [0x8A]
  | .tya => [0x98]
  | .tsx => [0xBA]
  | .txs => [0x9A]
  | .adcImmediate nn => encodeF2 0x69 nn
  | .adcZeroPage nn => encodeF2 0x65 nn
  | .adcZeroPageX nn => encodeF2 0x75 nn
  | .adcAbsolute hhll => encodeF3 0x6D hhll
  | .adcAbsoluteX hhll => encodeF3 0x7D hhll
  | .adcAbsoluteY hhll => encodeF3 0x79 hhll
  | .adcIndirectX nn => encodeF2 0x61 nn
  | .adcIndirectY nn => encodeF2 0x71 nn
  | .sbcImmediate nn => encodeF2 0xE9 nn
  | .sbcZeroPage nn => encodeF2 0xE5 nn
  | .sbcZeroPageX nn => encodeF2 0xF5 nn
  | .sbcAbsolute hhll => encodeF3 0xED hhll
  | .sbcAbsoluteX hhll => encodeF3 0xFD hhll
  | .sbcAbsoluteY hhll => encodeF3 0xF9 hhll
  | .sbcIndirectX nn => encodeF2 0xE1 nn
  | .sbcIndirectY nn => encodeF2 0xF1 nn
  | .incZeroPage nn => encodeF2 0xE6 nn
  | .incZeroPageX nn => encodeF2 0xF6 nn
  | .incAbsolute hhll => encodeF3 0xEE hhll
  | .incAbsoluteX hhll => encodeF3 0xFE hhll
  | .decZeroPage nn => encodeF2 0xC6 nn
  | .decZeroPageX nn => encodeF2 0xD6 nn
  | .decAbsolute hhll => encodeF3 0xCE hhll
  | .decAbsoluteX hhll => encodeF3 0xDE hhll
  | .inx => [0xE8]
  | .iny => [0xC8]
  | .dex => [0xCA]
  | .dey => [0x88]
  | .andImmediate nn => encodeF2 0x29 nn
  | .andZeroPage nn => encodeF2 0x25 nn
  | .andZeroPageX nn => encodeF2 0x35 nn
  | .andAbsolute hhll => encodeF3 0x2D hhll
  | .andAbsoluteX hhll => encodeF3 0x3D hhll
  | .andAbsoluteY hhll => encodeF3 0x39 hhll
  | .andIndirectX nn => encodeF2 0x21 nn
  | .andIndirectY nn => encodeF2 0x31 nn
  | .oraImmediate nn => encodeF2 0x09 nn
  | .oraZeroPage nn => encodeF2 0x05 nn
  | .oraZeroPageX nn => encodeF2 0x15 nn
  | .oraAbsolute hhll => encodeF3 0x0D hhll
  | .oraAbsoluteX hhll => encodeF3 0x1D hhll
  | .oraAbsoluteY hhll => encodeF3 0x19 hhll
  | .oraIndirectX nn => encodeF2 0x01 nn
  | .oraIndirectY nn => encodeF2 0x11 nn
  | .eorImmediate nn => encodeF2 0x49 nn
  | .eorZeroPage nn => encodeF2 0x45 nn
  | .eorZeroPageX nn => encodeF2 0x55 nn
  | .eorAbsolute hhll => encodeF3 0x4D hhll
  | .eorAbsoluteX hhll => encodeF3 0x5D hhll
  | .eorAbsoluteY hhll => encodeF3 0x59 hhll
  | .eorIndirectX nn => encodeF2 0x41 nn
  | .eorIndirectY nn => encodeF2 0x51 nn
  | .bitZeroPage nn => encodeF2 0x24 nn
  | .bitAbsolute hhll => encodeF3 0x2C hhll
  | .aslZeroPage nn => encodeF2 0x06 nn
  | .aslZeroPageX nn => encodeF2 0x16 nn
  | .aslAbsolute hhll => encodeF3 0x0E hhll
  | .aslAbsoluteX hhll => encodeF3 0x1E hhll
  | .aslAccumulator => [0x0A]
  | .lsrZeroPage nn => encodeF2 0x46 nn
  | .lsrZeroPageX nn => encodeF2 0x56 nn
  | .lsrAbsolute hhll => encodeF3 0x4E hhll
  | .lsrAbsoluteX hhll => encodeF3 0x5E hhll
  | .lsrAccumulator => [0x4A]
  | .rolZeroPage nn => encodeF2 0x26 nn
  | .rolZeroPageX nn => encodeF2 0x36 nn
  | .rolAbsolute hhll => encodeF3 0x2E hhll
  | .rolAbsoluteX hhll => encodeF3 0x3E hhll
  | .rolAccumulator => [0x2A]
  | .rorZeroPage nn => encodeF2 0x66 nn
  | .rorZeroPageX nn => encodeF2 0x76 nn
  | .rorAbsolute hhll => encodeF3 0x6E hhll
  | .rorAbsoluteX hhll => encodeF3 0x7E hhll
  | .rorAccumulator => [0x6A]
  | .cmpImmediate nn => encodeF2 0xC9 nn
  | .cmpZeroPage nn => encodeF2 0xC5 nn
  | .cmpZeroPageX nn => encodeF2 0xD5 nn
  | .cmpAbsolute hhll => encodeF3 0xCD hhll
  | .cmpAbsoluteX hhll => encodeF3 0xDD hhll
  | .cmpAbsoluteY hhll => encodeF3 0xD9 hhll
  | .cmpIndirectX nn => encodeF2 0xC1 nn
  | .cmpIndirectY nn => encodeF2 0xD1 nn
  | .cpxImmediate nn => encodeF2 0xE0 nn
  | .cpxZeroPage nn => encodeF2 0xE4 nn
  | .cpxAbsolute hhll => encodeF3 0xEC hhll
  | .cpyImmediate nn => encodeF2 0xC0 nn
  | .cpyZeroPage nn => encodeF2 0xC4 nn
  | .cpyAbsolute hhll => encodeF3 0xCC hhll
  | .bpl nn => encodeF2 0x10 nn
  | .bmi nn => encodeF2 0x30 nn
  | .bvc nn => encodeF2 0x50 nn
  | .bvs nn => encodeF2 0x70 nn
  | .bcc nn => encodeF2 0x90 nn
  | .bcs nn => encodeF2 0xB0 nn
  | .bne nn => encodeF2 0xD0 nn
  | .beq nn => encodeF2 0xF0 nn
  | .jmpAbsolute hhll => encodeF3 0x4C hhll
  | .jmpIndirect hhll => encodeF3 0x6C hhll
  | .jsr hhll => encodeF3 0x20 hhll
  | .rts => [0x60]
  | .pha => [0x48]
  | .pla => [0x68]
  | .php => [0x08]
  | .plp => [0x28]
  | .brk => [0x00]
  | .rti => [0x40]
  | .nop => [0xEA]
  | .clc => [0x18]
  | .sec => [0x38]
  | .cli => [0x58]
  | .sei => [0x78]
  | .clv => [0xB8]
  | .cld => [0xD8]
  | .sed => [0xF8]
  | .unimplemented opcode => [opcode]

/-- The opcode byte of an instruction: its first byte (R80). -/
def Instr.opcode (i : Instr) : Byte := (encode i).headD 0x00

/-- The decoder's entry for an instruction. -/
def Instr.spec (i : Instr) : InstructionSpec := decodeSpec i.opcode

/-- The number of bytes of an instruction (R81). -/
def Instr.length (i : Instr) : Nat := i.spec.length

end Sys2Proof
end

