-- ==== Sys2Proof/Config.lean ====
section
/-! DEFINITION. The named parameters of 00_scope.md R7 as plain data. `Mapped`, `Canon` and `Writable` are functions of
an address there; here each is written as a list of address ranges, which can express every such function (a range may be
one address). What the lists mean is said by `mapped`, `canon` and `writable` in Machine/Ops.lean. log 1. -/

namespace Sys2Proof

/-- The addresses from `first` to `last`, both included. -/
structure AddrRange where
  first : Word
  last  : Word
deriving DecidableEq, Repr

/-- One piece of the mirror map `Canon` (R51): an address of `range` names the cell
`base + (address - range.first) mod period`. -/
structure Mirror where
  range  : AddrRange
  base   : Word
  period : Nat
deriving DecidableEq, Repr

/-- The parameters that stay fixed for the life of a session. The defaults are those of R7: a flat 64 KiB RAM. -/
structure Platform where
  /-- addresses for which `Mapped` is false -/
  unmapped : List AddrRange := []
  /-- canonical addresses for which `Writable` is false -/
  readOnly : List AddrRange := []
  /-- `Canon`: the first entry whose range holds the address decides, else the identity -/
  mirrors : List Mirror := []
  /-- `BUS_FALLBACK` -/
  fallback : Byte := 0x00
  /-- `RESET_CYCLES` -/
  resetCycles : Nat := 7
deriving DecidableEq, Repr

/-- What a storage cell holds that neither `INIT_MEM`, nor the image, nor a write has set: the default of `INIT_MEM`,
"all 0x00" (R7). -/
abbrev blankByte : Byte := 0x00

end Sys2Proof
end

