-- ==== Sys2Proof/Machine/State.lean ====
section
/-! DEFINITION. The state of one session (10_state.md R20) as plain data, with the trace recorder's sequence
(49_trace_verifier.md R283) and the session's fixed parameters beside it; the reasons a step can stop; the state after
power-on (70_reset_and_hazards.md R341). -/

namespace Sys2Proof.Machine

/-- The storage behind the bus (20_memory.md R51): the cells that differ from `blankByte`, addresses strictly rising. -/
abbrev Memory := List Host.Cell

/-- A Trace Entry (49_trace_verifier.md R280): the state before an instruction executes. -/
structure TraceEntry where
  pc    : Word
  bytes : List Byte
  a     : Byte
  x     : Byte
  y     : Byte
  p     : Byte
  sp    : Byte
  cyc   : Nat
deriving DecidableEq, Repr

/-- The recorder (49_trace_verifier.md R283): whether the opt-in recording is on, and the append-only sequence. -/
structure Recorder where
  recording : Bool
  entries   : List TraceEntry
deriving DecidableEq, Repr

/-- The session (10_state.md R20). The registers and flags are R21 to R31, the execution state R34 to R37. -/
structure State where
  a          : Byte
  x          : Byte
  y          : Byte
  sp         : Byte
  pc         : Word
  /-- the status word: C Z I D B U V N from bit 0 to bit 7 (R27) -/
  p          : Byte
  cyc        : Nat
  nmiPending : Bool
  irqPending : Bool
  halted     : Option Byte
  mem        : Memory
  platform   : Platform
  recorder   : Recorder
deriving DecidableEq, Repr

/-- Why a step ends in a fault. -/
inductive Fault where
  /-- 60_exceptions.md R311. Raised by an opcode byte of 30_encoding.md R88 and by every step of a session that such a
  byte has halted. Safe: the spec gives the step this very outcome (R111). -/
  | unimplementedOpcode (byte : Byte)
deriving DecidableEq, Repr

/-- Why an instruction has no meaning. -/
inductive Refusal where
  /-- An arm of `exec` that has no meaning yet. No arm of this model uses it. Safe: the machine stops. -/
  | notModelled (mnemonic : String)
deriving DecidableEq, Repr

/-- Power-on with the default parameters and no image (70_reset_and_hazards.md R341; 10_state.md R40, R41): PC is the
word that zero memory holds at the reset vector (R343 item 1). -/
def State.reset : State where
  a          := 0x00
  x          := 0x00
  y          := 0x00
  sp         := 0xFD
  pc         := 0x0000
  p          := 0x24
  cyc        := 7
  nmiPending := false
  irqPending := false
  halted     := none
  mem        := []
  platform   := {}
  recorder   := ⟨false, []⟩

end Sys2Proof.Machine
end

