-- ==== Sys2Proof/Machine/Flags.lean ====
section
/-! DEFINITION. The status word and every flag computation of the spec, as functions on bytes. -/

namespace Sys2Proof.Machine

/-! ### Bit positions (10_state.md R27) -/

abbrev carryBit : Nat := 0
abbrev zeroBit : Nat := 1
abbrev interruptBit : Nat := 2
abbrev decimalBit : Nat := 3
abbrev breakBit : Nat := 4
abbrev unusedBit : Nat := 5
abbrev overflowBit : Nat := 6
abbrev negativeBit : Nat := 7

/-- Bit `n` of the status word (R27). -/
def flag (p : Byte) (n : Nat) : Bool := p.getLsbD n

/-- The status word with bit `n` written and every other bit kept. -/
def withFlag (p : Byte) (n : Nat) (b : Bool) : Byte :=
  if b then p ||| (1#8 <<< n) else p &&& ~~~(1#8 <<< n)

/-- `SetZN(v)` of 00_scope.md R13. -/
def withZN (p v : Byte) : Byte :=
  withFlag (withFlag p zeroBit (v == 0)) negativeBit (v.getLsbD 7)

/-! ### Addition, comparison, shifts -/

/-- What an addition leaves: the byte, the carry out of bit 7, the signed overflow. -/
structure Sum where
  result   : Byte
  carry    : Bool
  overflow : Bool
deriving DecidableEq, Repr

/-- `Add(m)` of 43_arithmetic.md R171: the exact sum, narrowed to a byte. -/
def addWithCarry (a m : Byte) (c : Bool) : Sum :=
  let sum := a.toNat + m.toNat + c.toNat
  let r : Byte := BitVec.ofNat 8 sum
  { result := r
    carry := decide (255 < sum)
    overflow := (a.getLsbD 7 == m.getLsbD 7) && (a.getLsbD 7 != r.getLsbD 7) }

/-- The status word after `Add`: C, V, Z and N are written (R171). -/
def withSum (p : Byte) (r : Sum) : Byte :=
  withZN (withFlag (withFlag p carryBit r.carry) overflowBit r.overflow) r.result

/-- `Compare(reg, m)` of 45_compare.md R210: C, Z and N are written. -/
def withCompare (p reg m : Byte) : Byte :=
  withZN (withFlag p carryBit (decide (m.toNat ≤ reg.toNat))) (reg - m)

/-- The flags of BIT (44_logical_shift.md R194): Z from the AND, N and V from bits 7 and 6 of the operand. -/
def withBitTest (p a m : Byte) : Byte :=
  withFlag (withFlag (withFlag p zeroBit ((a &&& m) == 0)) negativeBit (m.getLsbD 7)) overflowBit (m.getLsbD 6)

/-- What a shift or rotate leaves: the byte and the bit that goes to Carry. -/
structure Shifted where
  result : Byte
  carry  : Bool
deriving DecidableEq, Repr

/-- ASL (44_logical_shift.md R196). -/
def shiftLeft (v : Byte) : Shifted := ⟨v <<< 1, v.getLsbD 7⟩

/-- LSR (R197). -/
def shiftRight (v : Byte) : Shifted := ⟨v >>> 1, v.getLsbD 0⟩

/-- ROL (R198): the old Carry enters at bit 0. -/
def rotateLeft (c : Bool) (v : Byte) : Shifted :=
  ⟨(v <<< 1) + (if c then 0x01 else 0x00), v.getLsbD 7⟩

/-- ROR (R199): the old Carry enters at bit 7. -/
def rotateRight (c : Bool) (v : Byte) : Shifted :=
  ⟨(v >>> 1) + (if c then 0x80 else 0x00), v.getLsbD 0⟩

/-- The status word after a shift or rotate: C, Z and N are written (R195). -/
def withShift (p : Byte) (r : Shifted) : Byte :=
  withZN (withFlag p carryBit r.carry) r.result

/-! ### The status word on the stack -/

/-- The byte PHP and BRK push (47_jump_call_stack.md R244, 48_system.md R256). -/
def statusPushedByInstruction (p : Byte) : Byte := p ||| 0x30

/-- The byte an interrupt service pushes (60_exceptions.md R317). -/
def statusPushedByInterrupt (p : Byte) : Byte := (p &&& 0xEF) ||| 0x20

/-- The status word after PLP or RTI has pulled `v` (47_jump_call_stack.md R245, 48_system.md R257). -/
def statusPulled (p v : Byte) : Byte := (v &&& 0xCF) ||| 0x20 ||| (p &&& 0x10)

end Sys2Proof.Machine
end

