-- ==== Sys2Proof/Machine/Ops.lean ====
section
/-! DEFINITION. The named operations over registers, storage, bus and stack (20_memory.md), taking an interrupt and
returning from one (60_exceptions.md R316, R317; 48_system.md R256, R257), and the halted latch (48_system.md R266). -/

namespace Sys2Proof.Machine

/-! ### Register writes. Each changes one element of R20 and nothing else. -/

def State.setA (s : State) (v : Byte) : State := { s with a := v }
def State.setX (s : State) (v : Byte) : State := { s with x := v }
def State.setY (s : State) (v : Byte) : State := { s with y := v }
def State.setSp (s : State) (v : Byte) : State := { s with sp := v }
def State.setPc (s : State) (w : Word) : State := { s with pc := w }
def State.setP (s : State) (v : Byte) : State := { s with p := v }
def State.addCyc (s : State) (n : Nat) : State := { s with cyc := s.cyc + n }
def State.setNmi (s : State) (b : Bool) : State := { s with nmiPending := b }
def State.setIrq (s : State) (b : Bool) : State := { s with irqPending := b }
def State.setMem (s : State) (m : Memory) : State := { s with mem := m }
def State.setRecorder (s : State) (r : Recorder) : State := { s with recorder := r }

/-- `halted <- some(b)` (10_state.md R37). -/
def State.latchHalt (s : State) (b : Byte) : State := { s with halted := some b }

/-- One flag written (48_system.md R259 to R265 and every other single-flag write). -/
def State.setFlag (s : State) (n : Nat) (b : Bool) : State := s.setP (withFlag s.p n b)

/-- `SetZN(v)` of 00_scope.md R13. -/
def State.setZN (s : State) (v : Byte) : State := s.setP (withZN s.p v)

/-! ### The parameters of the bus (20_memory.md R51) -/

def inRange (r : AddrRange) (a : Word) : Bool :=
  decide (r.first.toNat ≤ a.toNat) && decide (a.toNat ≤ r.last.toNat)

/-- `Mapped`. -/
def mapped (pf : Platform) (a : Word) : Bool := !(pf.unmapped.any fun r => inRange r a)

/-- `Writable`, asked of a canonical address. -/
def writable (pf : Platform) (a : Word) : Bool := !(pf.readOnly.any fun r => inRange r a)

/-- The first mirror whose range holds the address decides. -/
def canonBy : List Mirror → Word → Word
  | [], a => a
  | m :: ms, a =>
    if inRange m.range a then m.base + BitVec.ofNat 16 ((a.toNat - m.range.first.toNat) % m.period)
    else canonBy ms a

/-- `Canon`. -/
def canon (pf : Platform) (a : Word) : Word := canonBy pf.mirrors a

/-- The requirement of R51 on a session's parameters: `Canon(Canon(a)) = Canon(a)`. -/
def Platform.idempotent (pf : Platform) : Prop := ∀ a, canon pf (canon pf a) = canon pf a

/-! ### Storage -/

/-- The content of a cell: `blankByte` unless listed. -/
def Memory.get : Memory → Nat → Byte
  | [], _ => blankByte
  | c :: rest, k => if k = c.1 then c.2 else Memory.get rest k

/-- The storage with cell `k` holding `v`; a cell that holds `blankByte` is not listed. -/
def Memory.set : Memory → Nat → Byte → Memory
  | [], k, v => if v = blankByte then [] else [(k, v)]
  | c :: rest, k, v =>
    if c.1 < k then c :: Memory.set rest k v
    else if c.1 = k then (if v = blankByte then rest else (k, v) :: rest)
    else if v = blankByte then c :: rest
    else (k, v) :: c :: rest

/-- Every listed address is at least `lo` and below 65536, addresses rise strictly, no listed cell is blank. -/
def Memory.wfFrom : Nat → Memory → Bool
  | _, [] => true
  | lo, c :: rest =>
    decide (lo ≤ c.1) && decide (c.1 < 65536) && decide (c.2 ≠ blankByte) && Memory.wfFrom (c.1 + 1) rest

/-- The canonical form: two storages in it that read alike are the same list. -/
def Memory.wf (m : Memory) : Bool := Memory.wfFrom 0 m

/-! ### The bus -/

/-- `MemRead(addr, 1)` (R52). -/
def State.read (s : State) (a : Word) : Byte :=
  if mapped s.platform a then Memory.get s.mem (canon s.platform a).toNat else s.platform.fallback

/-- `MemWrite(addr, 1, v)` (R53). -/
def State.write (s : State) (a : Word) (v : Byte) : State :=
  if mapped s.platform a && writable s.platform (canon s.platform a) then
    s.setMem (Memory.set s.mem (canon s.platform a).toNat v)
  else s

/-- `MemRead16(addr)` (R56). -/
def State.read16 (s : State) (a : Word) : Word := joinBytes (s.read (a + 1)) (s.read a)

/-- `MemRead16ZP(p)` (R57). -/
def State.read16ZeroPage (s : State) (p : Byte) : Word :=
  joinBytes (s.read (zeroExtend16 (p + 1))) (s.read (zeroExtend16 p))

/-- `MemRead16Bug(ptr)` (R58). -/
def State.read16SamePage (s : State) (ptr : Word) : Word :=
  joinBytes (s.read (joinBytes (hiByte ptr) (loByte ptr + 1))) (s.read ptr)

/-! ### The stack (20_memory.md R59 to R63) -/

/-- The cell a stack pointer names (R59). -/
def stackAddress (sp : Byte) : Word := 0x0100 + zeroExtend16 sp

/-- `Push8(v)` (R60). -/
def State.push8 (s : State) (v : Byte) : State := (s.write (stackAddress s.sp) v).setSp (s.sp - 1)

/-- `Pull8()` (R61): the byte and the state after. -/
def State.pull8 (s : State) : Byte × State :=
  (s.read (stackAddress (s.sp + 1)), s.setSp (s.sp + 1))

/-- `Push16(w)` (R62): high byte first. -/
def State.push16 (s : State) (w : Word) : State := (s.push8 (hiByte w)).push8 (loByte w)

/-- `Pull16()` (R63): low byte first. -/
def State.pull16 (s : State) : Word × State :=
  let l := s.pull8
  let h := l.2.pull8
  (joinBytes h.1 l.1, h.2)

/-! ### Interrupt entry and return -/

/-- 20_memory.md R67. -/
def nmiVector : Word := 0xFFFA
def resetVector : Word := 0xFFFC
def irqVector : Word := 0xFFFE

/-- "This costs a fixed number of cycles (7, matching hardware)" (60_exceptions.md R317). -/
def serviceCycles : Nat := 7

/-- What BRK and an interrupt service share (48_system.md R256, 60_exceptions.md R317): the return address and a status
byte go on the stack, Interrupt-Disable is set, PC is loaded from the vector. -/
def State.enterHandler (s : State) (returnTo : Word) (status : Byte) (vector : Word) : State :=
  let pushed := (s.push16 returnTo).push8 status
  let masked := pushed.setFlag interruptBit true
  masked.setPc (masked.read16 vector)

/-- `Service(vector)` (60_exceptions.md R317). -/
def State.service (s : State) (vector : Word) : State :=
  (s.enterHandler s.pc (statusPushedByInterrupt s.p) vector).addCyc serviceCycles

/-- The interrupt check S1 of a step (60_exceptions.md R316): at most one service. -/
def State.checkInterrupts (s : State) : State :=
  if s.nmiPending then (s.setNmi false).service nmiVector
  else if s.irqPending && !flag s.p interruptBit then (s.setIrq false).service irqVector
  else s

/-- What RTI does (48_system.md R257). -/
def State.returnFromInterrupt (s : State) : State :=
  let v := s.pull8
  let w := (v.2.setP (statusPulled v.2.p v.1)).pull16
  w.2.setPc w.1

/-! ### Fetch -/

/-- The instruction at PC (40_execution_core.md R113 to R115): the opcode byte and the operand bytes its entry asks for,
at PC and after it, addresses wrapping modulo 65536 (30_encoding.md R81). -/
def State.fetch (s : State) : Instr :=
  decodeBytes (s.read s.pc) (s.read (s.pc + 1)) (s.read (s.pc + 2))

end Sys2Proof.Machine
end

