-- ==== Sys2Proof/Machine/Operands.lean ====
section
/-! DEFINITION. The addressing-mode resolver (41_addressing_modes.md). Implied and Accumulator have no effective address
and Immediate is the operand byte itself; the other ten modes resolve to an address. The operand bytes are those the
decoder has read from memory. -/

namespace Sys2Proof.Machine

/-- The ten modes that yield an effective address, each with its operand bytes. -/
inductive Addressing where
  | zeroPage  (nn : Byte)
  | zeroPageX (nn : Byte)
  | zeroPageY (nn : Byte)
  | absolute  (hhll : Word)
  | absoluteX (hhll : Word)
  | absoluteY (hhll : Word)
  | indirect  (hhll : Word)
  | indirectX (nn : Byte)
  | indirectY (nn : Byte)
  | relative  (nn : Byte)
deriving DecidableEq, Repr

/-- The pair `(ea, crossed)` of R130. -/
structure Resolved where
  ea      : Word
  crossed : Bool
deriving DecidableEq, Repr

/-- A 16-bit base plus an 8-bit index, modulo 65536, with the page test of R138, R139 and R142. -/
def indexed (base : Word) (index : Byte) : Resolved :=
  let a := base + zeroExtend16 index
  ⟨a, pageDiff base a⟩

/-- `Resolve(mode)` (R134 to R143), in the state whose PC has advanced past the operand bytes. -/
def resolve (m : Addressing) (s : State) : Resolved :=
  match m with
  | .zeroPage nn    => ⟨zeroExtend16 nn, false⟩
  | .zeroPageX nn   => ⟨zeroExtend16 (nn + s.x), false⟩
  | .zeroPageY nn   => ⟨zeroExtend16 (nn + s.y), false⟩
  | .absolute hhll  => ⟨hhll, false⟩
  | .absoluteX hhll => indexed hhll s.x
  | .absoluteY hhll => indexed hhll s.y
  | .indirect hhll  => ⟨s.read16SamePage hhll, false⟩
  | .indirectX nn   => ⟨s.read16ZeroPage (nn + s.x), false⟩
  | .indirectY nn   => indexed (s.read16ZeroPage nn) s.y
  | .relative nn    => ⟨s.pc + signExtend16 nn, false⟩

/-- Where a read instruction takes its operand: the second byte of the instruction (R133) or memory. -/
inductive Source where
  | immediate (nn : Byte)
  | memory    (m : Addressing)
deriving DecidableEq, Repr

/-- `Operand(mode, ea)` of R145 for a read instruction, with the page-crossing flag. -/
def readSource (src : Source) (s : State) : Byte × Bool :=
  match src with
  | .immediate nn => (nn, false)
  | .memory m     => (s.read (resolve m s).ea, (resolve m s).crossed)

/-- What a read-modify-write instruction works on: register A (R132) or memory. -/
inductive Target where
  | accumulator
  | memory (m : Addressing)
deriving DecidableEq, Repr

/-- A target with its address resolved. -/
inductive Place where
  | accumulator
  | address (a : Word)
deriving DecidableEq, Repr

def placeOf (t : Target) (s : State) : Place × Bool :=
  match t with
  | .accumulator => (.accumulator, false)
  | .memory m    => (.address (resolve m s).ea, (resolve m s).crossed)

/-- `Operand(mode, ea)` of R145 for a read-modify-write instruction. -/
def readPlace (pl : Place) (s : State) : Byte :=
  match pl with
  | .accumulator => s.a
  | .address a   => s.read a

/-- `WriteBack(mode, ea, v)` of R145. -/
def writePlace (pl : Place) (v : Byte) (s : State) : State :=
  match pl with
  | .accumulator => s.setA v
  | .address a   => s.write a v

end Sys2Proof.Machine
end

