-- ==== Sys2Proof/Machine/Perform.lean ====
section
/-! DEFINITION. The part of a step every instruction shares (40_execution_core.md R112, S5 to S8): PC past the
instruction's bytes, Resolve and Execute, the cycles. -/

namespace Sys2Proof.Machine

/-- What Resolve and Execute leave (S6, S7): the state, the page-crossing flag, the extra cycles of a branch. -/
structure Executed where
  state   : State
  crossed : Bool
  extra   : Nat
deriving DecidableEq, Repr

/-- S5 to S8 for the instruction with this opcode byte. `body` is given `opaddr` and the state whose PC is the address
of the following instruction (R115). -/
def perform (opcode : Byte) (body : Word → State → Executed) (s : State) : Host.Outcome State Fault Refusal :=
  let spec := decodeSpec opcode
  let d := body s.pc (s.setPc (s.pc + BitVec.ofNat 16 spec.length))
  .next (d.state.addCyc
    (spec.baseCycles + (if spec.pageCrossAddsCycle && d.crossed then 1 else 0) + d.extra))

/-- Mode Implied (R131): registers, flags and stack only. -/
def implied (f : State → State) : Word → State → Executed :=
  fun _ s => ⟨f s, false, 0⟩

/-- An instruction that reads its operand once (R145). -/
def reading (src : Source) (f : Byte → State → State) : Word → State → Executed :=
  fun _ s => ⟨f (readSource src s).1 s, (readSource src s).2, 0⟩

/-- A store: `MemWrite` only, the target is not read (R145). -/
def storing (m : Addressing) (value : State → Byte) : Word → State → Executed :=
  fun _ s => ⟨s.write (resolve m s).ea (value s), (resolve m s).crossed, 0⟩

/-- A read-modify-write instruction: one read and one write of the target (R145). `f` takes the status word and the
operand to the result and the new status word. -/
def modifying (t : Target) (f : Byte → Byte → Byte × Byte) : Word → State → Executed :=
  fun _ s =>
    let pl := placeOf t s
    let r := f s.p (readPlace pl.1 s)
    ⟨(writePlace pl.1 r.1 s).setP r.2, pl.2, 0⟩

/-- JMP and JSR: the effective address is the target. -/
def jumping (m : Addressing) (f : Word → State → State) : Word → State → Executed :=
  fun _ s => ⟨f (resolve m s).ea s, (resolve m s).crossed, 0⟩

/-- `Branch(cond)` (46_branch.md R220, R229): the page test compares the target with the branch's own address. -/
def branching (cond : State → Bool) (nn : Byte) : Word → State → Executed :=
  fun opaddr s =>
    let target := (resolve (.relative nn) s).ea
    if cond s then ⟨s.setPc target, false, 1 + (if pageDiff target opaddr then 1 else 0)⟩
    else ⟨s, false, 0⟩

end Sys2Proof.Machine
end

