-- ==== Sys2Proof/Machine/Arithmetic.lean ====
section
/-! DEFINITION. Arithmetic (43_arithmetic.md R170 to R179). For each mnemonic its effect once,
then a meaning for each of its opcode bytes. -/

namespace Sys2Proof.Machine

/-! ### ADC -/

/-- R171: `Add(m)`; `P.D` plays no part (R170). -/
def addOperand (m : Byte) (s : State) : State :=
  let r := addWithCarry s.a m (flag s.p carryBit)
  (s.setA r.result).setP (withSum s.p r)

/-- R171, opcode 0x69. -/
def execAdcImmediate (nn : Byte) (s : State) : Host.Outcome State Fault Refusal :=
  perform 0x69 (reading (.immediate nn) addOperand) s

/-- R171, opcode 0x65. -/
def execAdcZeroPage (nn : Byte) (s : State) : Host.Outcome State Fault Refusal :=
  perform 0x65 (reading (.memory (.zeroPage nn)) addOperand) s

/-- R171, opcode 0x75. -/
def execAdcZeroPageX (nn : Byte) (s : State) : Host.Outcome State Fault Refusal :=
  perform 0x75 (reading (.memory (.zeroPageX nn)) addOperand) s

/-- R171, opcode 0x6D. -/
def execAdcAbsolute (hhll : Word) (s : State) : Host.Outcome State Fault Refusal :=
  perform 0x6D (reading (.memory (.absolute hhll)) addOperand) s

/-- R171, opcode 0x7D. -/
def execAdcAbsoluteX (hhll : Word) (s : State) : Host.Outcome State Fault Refusal :=
  perform 0x7D (reading (.memory (.absoluteX hhll)) addOperand) s

/-- R171, opcode 0x79. -/
def execAdcAbsoluteY (hhll : Word) (s : State) : Host.Outcome State Fault Refusal :=
  perform 0x79 (reading (.memory (.absoluteY hhll)) addOperand) s

/-- R171, opcode 0x61. -/
def execAdcIndirectX (nn : Byte) (s : State) : Host.Outcome State Fault Refusal :=
  perform 0x61 (reading (.memory (.indirectX nn)) addOperand) s

/-- R171, opcode 0x71. -/
def execAdcIndirectY (nn : Byte) (s : State) : Host.Outcome State Fault Refusal :=
  perform 0x71 (reading (.memory (.indirectY nn)) addOperand) s

/-! ### SBC -/

/-- R172: `Add(m xor 0xFF)`. -/
def subtractOperand (m : Byte) (s : State) : State := addOperand (m ^^^ 0xFF) s

/-- R172, opcode 0xE9. -/
def execSbcImmediate (nn : Byte) (s : State) : Host.Outcome State Fault Refusal :=
  perform 0xE9 (reading (.immediate nn) subtractOperand) s

/-- R172, opcode 0xE5. -/
def execSbcZeroPage (nn : Byte) (s : State) : Host.Outcome State Fault Refusal :=
  perform 0xE5 (reading (.memory (.zeroPage nn)) subtractOperand) s

/-- R172, opcode 0xF5. -/
def execSbcZeroPageX (nn : Byte) (s : State) : Host.Outcome State Fault Refusal :=
  perform 0xF5 (reading (.memory (.zeroPageX nn)) subtractOperand) s

/-- R172, opcode 0xED. -/
def execSbcAbsolute (hhll : Word) (s : State) : Host.Outcome State Fault Refusal :=
  perform 0xED (reading (.memory (.absolute hhll)) subtractOperand) s

/-- R172, opcode 0xFD. -/
def execSbcAbsoluteX (hhll : Word) (s : State) : Host.Outcome State Fault Refusal :=
  perform 0xFD (reading (.memory (.absoluteX hhll)) subtractOperand) s

/-- R172, opcode 0xF9. -/
def execSbcAbsoluteY (hhll : Word) (s : State) : Host.Outcome State Fault Refusal :=
  perform 0xF9 (reading (.memory (.absoluteY hhll)) subtractOperand) s

/-- R172, opcode 0xE1. -/
def execSbcIndirectX (nn : Byte) (s : State) : Host.Outcome State Fault Refusal :=
  perform 0xE1 (reading (.memory (.indirectX nn)) subtractOperand) s

/-- R172, opcode 0xF1. -/
def execSbcIndirectY (nn : Byte) (s : State) : Host.Outcome State Fault Refusal :=
  perform 0xF1 (reading (.memory (.indirectY nn)) subtractOperand) s

/-! ### INC -/

/-- R173: `r <- v +8 1; SetZN(r)`, as result and status word. -/
def incremented (p v : Byte) : Byte × Byte := (v + 1, withZN p (v + 1))

/-- R173, opcode 0xE6. -/
def execIncZeroPage (nn : Byte) (s : State) : Host.Outcome State Fault Refusal :=
  perform 0xE6 (modifying (.memory (.zeroPage nn)) incremented) s

/-- R173, opcode 0xF6. -/
def execIncZeroPageX (nn : Byte) (s : State) : Host.Outcome State Fault Refusal :=
  perform 0xF6 (modifying (.memory (.zeroPageX nn)) incremented) s

/-- R173, opcode 0xEE. -/
def execIncAbsolute (hhll : Word) (s : State) : Host.Outcome State Fault Refusal :=
  perform 0xEE (modifying (.memory (.absolute hhll)) incremented) s

/-- R173, opcode 0xFE. -/
def execIncAbsoluteX (hhll : Word) (s : State) : Host.Outcome State Fault Refusal :=
  perform 0xFE (modifying (.memory (.absoluteX hhll)) incremented) s

/-! ### DEC -/

/-- R174: `r <- v -8 1; SetZN(r)`, as result and status word. -/
def decremented (p v : Byte) : Byte × Byte := (v - 1, withZN p (v - 1))

/-- R174, opcode 0xC6. -/
def execDecZeroPage (nn : Byte) (s : State) : Host.Outcome State Fault Refusal :=
  perform 0xC6 (modifying (.memory (.zeroPage nn)) decremented) s

/-- R174, opcode 0xD6. -/
def execDecZeroPageX (nn : Byte) (s : State) : Host.Outcome State Fault Refusal :=
  perform 0xD6 (modifying (.memory (.zeroPageX nn)) decremented) s

/-- R174, opcode 0xCE. -/
def execDecAbsolute (hhll : Word) (s : State) : Host.Outcome State Fault Refusal :=
  perform 0xCE (modifying (.memory (.absolute hhll)) decremented) s

/-- R174, opcode 0xDE. -/
def execDecAbsoluteX (hhll : Word) (s : State) : Host.Outcome State Fault Refusal :=
  perform 0xDE (modifying (.memory (.absoluteX hhll)) decremented) s

/-! ### INX -/

/-- R175: `X <- X +8 1; SetZN(X)`. -/
def incrementX (s : State) : State := (s.setX (s.x + 1)).setZN (s.x + 1)

/-- R175, opcode 0xE8. -/
def execInx (s : State) : Host.Outcome State Fault Refusal :=
  perform 0xE8 (implied incrementX) s

/-! ### INY -/

/-- R176: `Y <- Y +8 1; SetZN(Y)`. -/
def incrementY (s : State) : State := (s.setY (s.y + 1)).setZN (s.y + 1)

/-- R176, opcode 0xC8. -/
def execIny (s : State) : Host.Outcome State Fault Refusal :=
  perform 0xC8 (implied incrementY) s

/-! ### DEX -/

/-- R177: `X <- X -8 1; SetZN(X)`. -/
def decrementX (s : State) : State := (s.setX (s.x - 1)).setZN (s.x - 1)

/-- R177, opcode 0xCA. -/
def execDex (s : State) : Host.Outcome State Fault Refusal :=
  perform 0xCA (implied decrementX) s

/-! ### DEY -/

/-- R178: `Y <- Y -8 1; SetZN(Y)`. -/
def decrementY (s : State) : State := (s.setY (s.y - 1)).setZN (s.y - 1)

/-- R178, opcode 0x88. -/
def execDey (s : State) : Host.Outcome State Fault Refusal :=
  perform 0x88 (implied decrementY) s

end Sys2Proof.Machine
end

