-- ==== Sys2Proof/Machine/Branch.lean ====
section
/-! DEFINITION. Conditional branches (46_branch.md R220 to R229). For each mnemonic its effect once,
then a meaning for each of its opcode bytes. -/

namespace Sys2Proof.Machine

/-! ### BPL -/

/-- R221: `P.N == 0`. -/
def ifPlus (s : State) : Bool := !flag s.p negativeBit

/-- R221, opcode 0x10. -/
def execBpl (nn : Byte) (s : State) : Host.Outcome State Fault Refusal :=
  perform 0x10 (branching ifPlus nn) s

/-! ### BMI -/

/-- R222: `P.N == 1`. -/
def ifMinus (s : State) : Bool := flag s.p negativeBit

/-- R222, opcode 0x30. -/
def execBmi (nn : Byte) (s : State) : Host.Outcome State Fault Refusal :=
  perform 0x30 (branching ifMinus nn) s

/-! ### BVC -/

/-- R223: `P.V == 0`. -/
def ifOverflowClear (s : State) : Bool := !flag s.p overflowBit

/-- R223, opcode 0x50. -/
def execBvc (nn : Byte) (s : State) : Host.Outcome State Fault Refusal :=
  perform 0x50 (branching ifOverflowClear nn) s

/-! ### BVS -/

/-- R224: `P.V == 1`. -/
def ifOverflowSet (s : State) : Bool := flag s.p overflowBit

/-- R224, opcode 0x70. -/
def execBvs (nn : Byte) (s : State) : Host.Outcome State Fault Refusal :=
  perform 0x70 (branching ifOverflowSet nn) s

/-! ### BCC -/

/-- R225: `P.C == 0`. -/
def ifCarryClear (s : State) : Bool := !flag s.p carryBit

/-- R225, opcode 0x90. -/
def execBcc (nn : Byte) (s : State) : Host.Outcome State Fault Refusal :=
  perform 0x90 (branching ifCarryClear nn) s

/-! ### BCS -/

/-- R226: `P.C == 1`. -/
def ifCarrySet (s : State) : Bool := flag s.p carryBit

/-- R226, opcode 0xB0. -/
def execBcs (nn : Byte) (s : State) : Host.Outcome State Fault Refusal :=
  perform 0xB0 (branching ifCarrySet nn) s

/-! ### BNE -/

/-- R227: `P.Z == 0`. -/
def ifNotEqual (s : State) : Bool := !flag s.p zeroBit

/-- R227, opcode 0xD0. -/
def execBne (nn : Byte) (s : State) : Host.Outcome State Fault Refusal :=
  perform 0xD0 (branching ifNotEqual nn) s

/-! ### BEQ -/

/-- R228: `P.Z == 1`. -/
def ifEqual (s : State) : Bool := flag s.p zeroBit

/-- R228, opcode 0xF0. -/
def execBeq (nn : Byte) (s : State) : Host.Outcome State Fault Refusal :=
  perform 0xF0 (branching ifEqual nn) s

end Sys2Proof.Machine
end

