-- ==== Sys2Proof/Machine/Compare.lean ====
section
/-! DEFINITION. Compare (45_compare.md R210 to R213). For each mnemonic its effect once,
then a meaning for each of its opcode bytes. -/

namespace Sys2Proof.Machine

/-! ### CMP -/

/-- R211: `Compare(A, m)`. -/
def compareA (m : Byte) (s : State) : State := s.setP (withCompare s.p s.a m)

/-- R211, opcode 0xC9. -/
def execCmpImmediate (nn : Byte) (s : State) : Host.Outcome State Fault Refusal :=
  perform 0xC9 (reading (.immediate nn) compareA) s

/-- R211, opcode 0xC5. -/
def execCmpZeroPage (nn : Byte) (s : State) : Host.Outcome State Fault Refusal :=
  perform 0xC5 (reading (.memory (.zeroPage nn)) compareA) s

/-- R211, opcode 0xD5. -/
def execCmpZeroPageX (nn : Byte) (s : State) : Host.Outcome State Fault Refusal :=
  perform 0xD5 (reading (.memory (.zeroPageX nn)) compareA) s

/-- R211, opcode 0xCD. -/
def execCmpAbsolute (hhll : Word) (s : State) : Host.Outcome State Fault Refusal :=
  perform 0xCD (reading (.memory (.absolute hhll)) compareA) s

/-- R211, opcode 0xDD. -/
def execCmpAbsoluteX (hhll : Word) (s : State) : Host.Outcome State Fault Refusal :=
  perform 0xDD (reading (.memory (.absoluteX hhll)) compareA) s

/-- R211, opcode 0xD9. -/
def execCmpAbsoluteY (hhll : Word) (s : State) : Host.Outcome State Fault Refusal :=
  perform 0xD9 (reading (.memory (.absoluteY hhll)) compareA) s

/-- R211, opcode 0xC1. -/
def execCmpIndirectX (nn : Byte) (s : State) : Host.Outcome State Fault Refusal :=
  perform 0xC1 (reading (.memory (.indirectX nn)) compareA) s

/-- R211, opcode 0xD1. -/
def execCmpIndirectY (nn : Byte) (s : State) : Host.Outcome State Fault Refusal :=
  perform 0xD1 (reading (.memory (.indirectY nn)) compareA) s

/-! ### CPX -/

/-- R212: `Compare(X, m)`. -/
def compareX (m : Byte) (s : State) : State := s.setP (withCompare s.p s.x m)

/-- R212, opcode 0xE0. -/
def execCpxImmediate (nn : Byte) (s : State) : Host.Outcome State Fault Refusal :=
  perform 0xE0 (reading (.immediate nn) compareX) s

/-- R212, opcode 0xE4. -/
def execCpxZeroPage (nn : Byte) (s : State) : Host.Outcome State Fault Refusal :=
  perform 0xE4 (reading (.memory (.zeroPage nn)) compareX) s

/-- R212, opcode 0xEC. -/
def execCpxAbsolute (hhll : Word) (s : State) : Host.Outcome State Fault Refusal :=
  perform 0xEC (reading (.memory (.absolute hhll)) compareX) s

/-! ### CPY -/

/-- R213: `Compare(Y, m)`. -/
def compareY (m : Byte) (s : State) : State := s.setP (withCompare s.p s.y m)

/-- R213, opcode 0xC0. -/
def execCpyImmediate (nn : Byte) (s : State) : Host.Outcome State Fault Refusal :=
  perform 0xC0 (reading (.immediate nn) compareY) s

/-- R213, opcode 0xC4. -/
def execCpyZeroPage (nn : Byte) (s : State) : Host.Outcome State Fault Refusal :=
  perform 0xC4 (reading (.memory (.zeroPage nn)) compareY) s

/-- R213, opcode 0xCC. -/
def execCpyAbsolute (hhll : Word) (s : State) : Host.Outcome State Fault Refusal :=
  perform 0xCC (reading (.memory (.absolute hhll)) compareY) s

end Sys2Proof.Machine
end

