-- ==== Sys2Proof/Machine/JumpStack.lean ====
section
/-! DEFINITION. Jump, call, return and stack (47_jump_call_stack.md R235 to R245). For each mnemonic its effect once,
then a meaning for each of its opcode bytes. -/

namespace Sys2Proof.Machine

/-! ### JMP -/

/-- R236, R237: `PC <- ea`. -/
def jumpTo (ea : Word) (s : State) : State := s.setPc ea

/-- R236, opcode 0x4C. -/
def execJmpAbsolute (hhll : Word) (s : State) : Host.Outcome State Fault Refusal :=
  perform 0x4C (jumping (.absolute hhll) jumpTo) s

/-- R237, opcode 0x6C. -/
def execJmpIndirect (hhll : Word) (s : State) : Host.Outcome State Fault Refusal :=
  perform 0x6C (jumping (.indirect hhll) jumpTo) s

/-! ### JSR -/

/-- R238: `Push16(PC -16 1); PC <- ea`. -/
def callTo (ea : Word) (s : State) : State := (s.push16 (s.pc - 1)).setPc ea

/-- R238, opcode 0x20. -/
def execJsr (hhll : Word) (s : State) : Host.Outcome State Fault Refusal :=
  perform 0x20 (jumping (.absolute hhll) callTo) s

/-! ### RTS -/

/-- R239: `w <- Pull16(); PC <- w +16 1`. -/
def returnFromCall (s : State) : State :=
  let w := s.pull16
  w.2.setPc (w.1 + 1)

/-- R239, opcode 0x60. -/
def execRts (s : State) : Host.Outcome State Fault Refusal :=
  perform 0x60 (implied returnFromCall) s

/-! ### PHA -/

/-- R242: `Push8(A)`. -/
def pushA (s : State) : State := s.push8 s.a

/-- R242, opcode 0x48. -/
def execPha (s : State) : Host.Outcome State Fault Refusal :=
  perform 0x48 (implied pushA) s

/-! ### PLA -/

/-- R243: `A <- Pull8(); SetZN(A)`. -/
def pullA (s : State) : State :=
  let v := s.pull8
  (v.2.setA v.1).setZN v.1

/-- R243, opcode 0x68. -/
def execPla (s : State) : Host.Outcome State Fault Refusal :=
  perform 0x68 (implied pullA) s

/-! ### PHP -/

/-- R244: `Push8(P or 0x30)`; P is not changed. -/
def pushStatus (s : State) : State := s.push8 (statusPushedByInstruction s.p)

/-- R244, opcode 0x08. -/
def execPhp (s : State) : Host.Outcome State Fault Refusal :=
  perform 0x08 (implied pushStatus) s

/-! ### PLP -/

/-- R245: bits 7, 6, 3, 2, 1, 0 from the stack, bit 5 forced to 1, bit 4 kept. -/
def pullStatus (s : State) : State :=
  let v := s.pull8
  v.2.setP (statusPulled v.2.p v.1)

/-- R245, opcode 0x28. -/
def execPlp (s : State) : Host.Outcome State Fault Refusal :=
  perform 0x28 (implied pullStatus) s

end Sys2Proof.Machine
end

