-- ==== Sys2Proof/Machine/LoadStore.lean ====
section
/-! DEFINITION. Load, store and register transfer (42_load_store_transfer.md R150 to R162). For each mnemonic its effect once,
then a meaning for each of its opcode bytes. -/

namespace Sys2Proof.Machine

/-! ### LDA -/

/-- R151: `A <- v; SetZN(v)`. -/
def loadA (v : Byte) (s : State) : State := (s.setA v).setZN v

/-- R151, opcode 0xA9. -/
def execLdaImmediate (nn : Byte) (s : State) : Host.Outcome State Fault Refusal :=
  perform 0xA9 (reading (.immediate nn) loadA) s

/-- R151, opcode 0xA5. -/
def execLdaZeroPage (nn : Byte) (s : State) : Host.Outcome State Fault Refusal :=
  perform 0xA5 (reading (.memory (.zeroPage nn)) loadA) s

/-- R151, opcode 0xB5. -/
def execLdaZeroPageX (nn : Byte) (s : State) : Host.Outcome State Fault Refusal :=
  perform 0xB5 (reading (.memory (.zeroPageX nn)) loadA) s

/-- R151, opcode 0xAD. -/
def execLdaAbsolute (hhll : Word) (s : State) : Host.Outcome State Fault Refusal :=
  perform 0xAD (reading (.memory (.absolute hhll)) loadA) s

/-- R151, opcode 0xBD. -/
def execLdaAbsoluteX (hhll : Word) (s : State) : Host.Outcome State Fault Refusal :=
  perform 0xBD (reading (.memory (.absoluteX hhll)) loadA) s

/-- R151, opcode 0xB9. -/
def execLdaAbsoluteY (hhll : Word) (s : State) : Host.Outcome State Fault Refusal :=
  perform 0xB9 (reading (.memory (.absoluteY hhll)) loadA) s

/-- R151, opcode 0xA1. -/
def execLdaIndirectX (nn : Byte) (s : State) : Host.Outcome State Fault Refusal :=
  perform 0xA1 (reading (.memory (.indirectX nn)) loadA) s

/-- R151, opcode 0xB1. -/
def execLdaIndirectY (nn : Byte) (s : State) : Host.Outcome State Fault Refusal :=
  perform 0xB1 (reading (.memory (.indirectY nn)) loadA) s

/-! ### LDX -/

/-- R152: `X <- v; SetZN(v)`. -/
def loadX (v : Byte) (s : State) : State := (s.setX v).setZN v

/-- R152, opcode 0xA2. -/
def execLdxImmediate (nn : Byte) (s : State) : Host.Outcome State Fault Refusal :=
  perform 0xA2 (reading (.immediate nn) loadX) s

/-- R152, opcode 0xA6. -/
def execLdxZeroPage (nn : Byte) (s : State) : Host.Outcome State Fault Refusal :=
  perform 0xA6 (reading (.memory (.zeroPage nn)) loadX) s

/-- R152, opcode 0xB6. -/
def execLdxZeroPageY (nn : Byte) (s : State) : Host.Outcome State Fault Refusal :=
  perform 0xB6 (reading (.memory (.zeroPageY nn)) loadX) s

/-- R152, opcode 0xAE. -/
def execLdxAbsolute (hhll : Word) (s : State) : Host.Outcome State Fault Refusal :=
  perform 0xAE (reading (.memory (.absolute hhll)) loadX) s

/-- R152, opcode 0xBE. -/
def execLdxAbsoluteY (hhll : Word) (s : State) : Host.Outcome State Fault Refusal :=
  perform 0xBE (reading (.memory (.absoluteY hhll)) loadX) s

/-! ### LDY -/

/-- R153: `Y <- v; SetZN(v)`. -/
def loadY (v : Byte) (s : State) : State := (s.setY v).setZN v

/-- R153, opcode 0xA0. -/
def execLdyImmediate (nn : Byte) (s : State) : Host.Outcome State Fault Refusal :=
  perform 0xA0 (reading (.immediate nn) loadY) s

/-- R153, opcode 0xA4. -/
def execLdyZeroPage (nn : Byte) (s : State) : Host.Outcome State Fault Refusal :=
  perform 0xA4 (reading (.memory (.zeroPage nn)) loadY) s

/-- R153, opcode 0xB4. -/
def execLdyZeroPageX (nn : Byte) (s : State) : Host.Outcome State Fault Refusal :=
  perform 0xB4 (reading (.memory (.zeroPageX nn)) loadY) s

/-- R153, opcode 0xAC. -/
def execLdyAbsolute (hhll : Word) (s : State) : Host.Outcome State Fault Refusal :=
  perform 0xAC (reading (.memory (.absolute hhll)) loadY) s

/-- R153, opcode 0xBC. -/
def execLdyAbsoluteX (hhll : Word) (s : State) : Host.Outcome State Fault Refusal :=
  perform 0xBC (reading (.memory (.absoluteX hhll)) loadY) s

/-! ### STA -/

/-- R154: the byte STA stores. -/
def valueA (s : State) : Byte := s.a

/-- R154, opcode 0x85. -/
def execStaZeroPage (nn : Byte) (s : State) : Host.Outcome State Fault Refusal :=
  perform 0x85 (storing (.zeroPage nn) valueA) s

/-- R154, opcode 0x95. -/
def execStaZeroPageX (nn : Byte) (s : State) : Host.Outcome State Fault Refusal :=
  perform 0x95 (storing (.zeroPageX nn) valueA) s

/-- R154, opcode 0x8D. -/
def execStaAbsolute (hhll : Word) (s : State) : Host.Outcome State Fault Refusal :=
  perform 0x8D (storing (.absolute hhll) valueA) s

/-- R154, opcode 0x9D. -/
def execStaAbsoluteX (hhll : Word) (s : State) : Host.Outcome State Fault Refusal :=
  perform 0x9D (storing (.absoluteX hhll) valueA) s

/-- R154, opcode 0x99. -/
def execStaAbsoluteY (hhll : Word) (s : State) : Host.Outcome State Fault Refusal :=
  perform 0x99 (storing (.absoluteY hhll) valueA) s

/-- R154, opcode 0x81. -/
def execStaIndirectX (nn : Byte) (s : State) : Host.Outcome State Fault Refusal :=
  perform 0x81 (storing (.indirectX nn) valueA) s

/-- R154, opcode 0x91. -/
def execStaIndirectY (nn : Byte) (s : State) : Host.Outcome State Fault Refusal :=
  perform 0x91 (storing (.indirectY nn) valueA) s

/-! ### STX -/

/-- R155: the byte STX stores. -/
def valueX (s : State) : Byte := s.x

/-- R155, opcode 0x86. -/
def execStxZeroPage (nn : Byte) (s : State) : Host.Outcome State Fault Refusal :=
  perform 0x86 (storing (.zeroPage nn) valueX) s

/-- R155, opcode 0x96. -/
def execStxZeroPageY (nn : Byte) (s : State) : Host.Outcome State Fault Refusal :=
  perform 0x96 (storing (.zeroPageY nn) valueX) s

/-- R155, opcode 0x8E. -/
def execStxAbsolute (hhll : Word) (s : State) : Host.Outcome State Fault Refusal :=
  perform 0x8E (storing (.absolute hhll) valueX) s

/-! ### STY -/

/-- R156: the byte STY stores. -/
def valueY (s : State) : Byte := s.y

/-- R156, opcode 0x84. -/
def execStyZeroPage (nn : Byte) (s : State) : Host.Outcome State Fault Refusal :=
  perform 0x84 (storing (.zeroPage nn) valueY) s

/-- R156, opcode 0x94. -/
def execStyZeroPageX (nn : Byte) (s : State) : Host.Outcome State Fault Refusal :=
  perform 0x94 (storing (.zeroPageX nn) valueY) s

/-- R156, opcode 0x8C. -/
def execStyAbsolute (hhll : Word) (s : State) : Host.Outcome State Fault Refusal :=
  perform 0x8C (storing (.absolute hhll) valueY) s

/-! ### TAX -/

/-- R157: `X <- A; SetZN(X)`. -/
def transferAX (s : State) : State := (s.setX s.a).setZN s.a

/-- R157, opcode 0xAA. -/
def execTax (s : State) : Host.Outcome State Fault Refusal :=
  perform 0xAA (implied transferAX) s

/-! ### TAY -/

/-- R158: `Y <- A; SetZN(Y)`. -/
def transferAY (s : State) : State := (s.setY s.a).setZN s.a

/-- R158, opcode 0xA8. -/
def execTay (s : State) : Host.Outcome State Fault Refusal :=
  perform 0xA8 (implied transferAY) s

/-! ### TXA -/

/-- R159: `A <- X; SetZN(A)`. -/
def transferXA (s : State) : State := (s.setA s.x).setZN s.x

/-- R159, opcode 0x8A. -/
def execTxa (s : State) : Host.Outcome State Fault Refusal :=
  perform 0x8A (implied transferXA) s

/-! ### TYA -/

/-- R160: `A <- Y; SetZN(A)`. -/
def transferYA (s : State) : State := (s.setA s.y).setZN s.y

/-- R160, opcode 0x98. -/
def execTya (s : State) : Host.Outcome State Fault Refusal :=
  perform 0x98 (implied transferYA) s

/-! ### TSX -/

/-- R161: `X <- SP; SetZN(X)`. -/
def transferSX (s : State) : State := (s.setX s.sp).setZN s.sp

/-- R161, opcode 0xBA. -/
def execTsx (s : State) : Host.Outcome State Fault Refusal :=
  perform 0xBA (implied transferSX) s

/-! ### TXS -/

/-- R162: `SP <- X`, no flag. -/
def transferXS (s : State) : State := s.setSp s.x

/-- R162, opcode 0x9A. -/
def execTxs (s : State) : Host.Outcome State Fault Refusal :=
  perform 0x9A (implied transferXS) s

end Sys2Proof.Machine
end

