-- ==== Sys2Proof/Machine/Logical.lean ====
section
/-! DEFINITION. Logical, bit test, shift and rotate (44_logical_shift.md R190 to R199). For each mnemonic its effect once,
then a meaning for each of its opcode bytes. -/

namespace Sys2Proof.Machine

/-! ### AND -/

/-- R191: `A <- A and m; SetZN(A)`. -/
def andOperand (m : Byte) (s : State) : State := (s.setA (s.a &&& m)).setZN (s.a &&& m)

/-- R191, opcode 0x29. -/
def execAndImmediate (nn : Byte) (s : State) : Host.Outcome State Fault Refusal :=
  perform 0x29 (reading (.immediate nn) andOperand) s

/-- R191, opcode 0x25. -/
def execAndZeroPage (nn : Byte) (s : State) : Host.Outcome State Fault Refusal :=
  perform 0x25 (reading (.memory (.zeroPage nn)) andOperand) s

/-- R191, opcode 0x35. -/
def execAndZeroPageX (nn : Byte) (s : State) : Host.Outcome State Fault Refusal :=
  perform 0x35 (reading (.memory (.zeroPageX nn)) andOperand) s

/-- R191, opcode 0x2D. -/
def execAndAbsolute (hhll : Word) (s : State) : Host.Outcome State Fault Refusal :=
  perform 0x2D (reading (.memory (.absolute hhll)) andOperand) s

/-- R191, opcode 0x3D. -/
def execAndAbsoluteX (hhll : Word) (s : State) : Host.Outcome State Fault Refusal :=
  perform 0x3D (reading (.memory (.absoluteX hhll)) andOperand) s

/-- R191, opcode 0x39. -/
def execAndAbsoluteY (hhll : Word) (s : State) : Host.Outcome State Fault Refusal :=
  perform 0x39 (reading (.memory (.absoluteY hhll)) andOperand) s

/-- R191, opcode 0x21. -/
def execAndIndirectX (nn : Byte) (s : State) : Host.Outcome State Fault Refusal :=
  perform 0x21 (reading (.memory (.indirectX nn)) andOperand) s

/-- R191, opcode 0x31. -/
def execAndIndirectY (nn : Byte) (s : State) : Host.Outcome State Fault Refusal :=
  perform 0x31 (reading (.memory (.indirectY nn)) andOperand) s

/-! ### ORA -/

/-- R192: `A <- A or m; SetZN(A)`. -/
def orOperand (m : Byte) (s : State) : State := (s.setA (s.a ||| m)).setZN (s.a ||| m)

/-- R192, opcode 0x09. -/
def execOraImmediate (nn : Byte) (s : State) : Host.Outcome State Fault Refusal :=
  perform 0x09 (reading (.immediate nn) orOperand) s

/-- R192, opcode 0x05. -/
def execOraZeroPage (nn : Byte) (s : State) : Host.Outcome State Fault Refusal :=
  perform 0x05 (reading (.memory (.zeroPage nn)) orOperand) s

/-- R192, opcode 0x15. -/
def execOraZeroPageX (nn : Byte) (s : State) : Host.Outcome State Fault Refusal :=
  perform 0x15 (reading (.memory (.zeroPageX nn)) orOperand) s

/-- R192, opcode 0x0D. -/
def execOraAbsolute (hhll : Word) (s : State) : Host.Outcome State Fault Refusal :=
  perform 0x0D (reading (.memory (.absolute hhll)) orOperand) s

/-- R192, opcode 0x1D. -/
def execOraAbsoluteX (hhll : Word) (s : State) : Host.Outcome State Fault Refusal :=
  perform 0x1D (reading (.memory (.absoluteX hhll)) orOperand) s

/-- R192, opcode 0x19. -/
def execOraAbsoluteY (hhll : Word) (s : State) : Host.Outcome State Fault Refusal :=
  perform 0x19 (reading (.memory (.absoluteY hhll)) orOperand) s

/-- R192, opcode 0x01. -/
def execOraIndirectX (nn : Byte) (s : State) : Host.Outcome State Fault Refusal :=
  perform 0x01 (reading (.memory (.indirectX nn)) orOperand) s

/-- R192, opcode 0x11. -/
def execOraIndirectY (nn : Byte) (s : State) : Host.Outcome State Fault Refusal :=
  perform 0x11 (reading (.memory (.indirectY nn)) orOperand) s

/-! ### EOR -/

/-- R193: `A <- A xor m; SetZN(A)`. -/
def xorOperand (m : Byte) (s : State) : State := (s.setA (s.a ^^^ m)).setZN (s.a ^^^ m)

/-- R193, opcode 0x49. -/
def execEorImmediate (nn : Byte) (s : State) : Host.Outcome State Fault Refusal :=
  perform 0x49 (reading (.immediate nn) xorOperand) s

/-- R193, opcode 0x45. -/
def execEorZeroPage (nn : Byte) (s : State) : Host.Outcome State Fault Refusal :=
  perform 0x45 (reading (.memory (.zeroPage nn)) xorOperand) s

/-- R193, opcode 0x55. -/
def execEorZeroPageX (nn : Byte) (s : State) : Host.Outcome State Fault Refusal :=
  perform 0x55 (reading (.memory (.zeroPageX nn)) xorOperand) s

/-- R193, opcode 0x4D. -/
def execEorAbsolute (hhll : Word) (s : State) : Host.Outcome State Fault Refusal :=
  perform 0x4D (reading (.memory (.absolute hhll)) xorOperand) s

/-- R193, opcode 0x5D. -/
def execEorAbsoluteX (hhll : Word) (s : State) : Host.Outcome State Fault Refusal :=
  perform 0x5D (reading (.memory (.absoluteX hhll)) xorOperand) s

/-- R193, opcode 0x59. -/
def execEorAbsoluteY (hhll : Word) (s : State) : Host.Outcome State Fault Refusal :=
  perform 0x59 (reading (.memory (.absoluteY hhll)) xorOperand) s

/-- R193, opcode 0x41. -/
def execEorIndirectX (nn : Byte) (s : State) : Host.Outcome State Fault Refusal :=
  perform 0x41 (reading (.memory (.indirectX nn)) xorOperand) s

/-- R193, opcode 0x51. -/
def execEorIndirectY (nn : Byte) (s : State) : Host.Outcome State Fault Refusal :=
  perform 0x51 (reading (.memory (.indirectY nn)) xorOperand) s

/-! ### BIT -/

/-- R194: Z, N and V; A is not written. -/
def testBits (m : Byte) (s : State) : State := s.setP (withBitTest s.p s.a m)

/-- R194, opcode 0x24. -/
def execBitZeroPage (nn : Byte) (s : State) : Host.Outcome State Fault Refusal :=
  perform 0x24 (reading (.memory (.zeroPage nn)) testBits) s

/-- R194, opcode 0x2C. -/
def execBitAbsolute (hhll : Word) (s : State) : Host.Outcome State Fault Refusal :=
  perform 0x2C (reading (.memory (.absolute hhll)) testBits) s

/-! ### ASL -/

/-- R196: result and status word. -/
def shiftedLeft (p v : Byte) : Byte × Byte :=
  let r := shiftLeft v
  (r.result, withShift p r)

/-- R196, opcode 0x06. -/
def execAslZeroPage (nn : Byte) (s : State) : Host.Outcome State Fault Refusal :=
  perform 0x06 (modifying (.memory (.zeroPage nn)) shiftedLeft) s

/-- R196, opcode 0x16. -/
def execAslZeroPageX (nn : Byte) (s : State) : Host.Outcome State Fault Refusal :=
  perform 0x16 (modifying (.memory (.zeroPageX nn)) shiftedLeft) s

/-- R196, opcode 0x0E. -/
def execAslAbsolute (hhll : Word) (s : State) : Host.Outcome State Fault Refusal :=
  perform 0x0E (modifying (.memory (.absolute hhll)) shiftedLeft) s

/-- R196, opcode 0x1E. -/
def execAslAbsoluteX (hhll : Word) (s : State) : Host.Outcome State Fault Refusal :=
  perform 0x1E (modifying (.memory (.absoluteX hhll)) shiftedLeft) s

/-- R196, opcode 0x0A. -/
def execAslAccumulator (s : State) : Host.Outcome State Fault Refusal :=
  perform 0x0A (modifying .accumulator shiftedLeft) s

/-! ### LSR -/

/-- R197: result and status word. -/
def shiftedRight (p v : Byte) : Byte × Byte :=
  let r := shiftRight v
  (r.result, withShift p r)

/-- R197, opcode 0x46. -/
def execLsrZeroPage (nn : Byte) (s : State) : Host.Outcome State Fault Refusal :=
  perform 0x46 (modifying (.memory (.zeroPage nn)) shiftedRight) s

/-- R197, opcode 0x56. -/
def execLsrZeroPageX (nn : Byte) (s : State) : Host.Outcome State Fault Refusal :=
  perform 0x56 (modifying (.memory (.zeroPageX nn)) shiftedRight) s

/-- R197, opcode 0x4E. -/
def execLsrAbsolute (hhll : Word) (s : State) : Host.Outcome State Fault Refusal :=
  perform 0x4E (modifying (.memory (.absolute hhll)) shiftedRight) s

/-- R197, opcode 0x5E. -/
def execLsrAbsoluteX (hhll : Word) (s : State) : Host.Outcome State Fault Refusal :=
  perform 0x5E (modifying (.memory (.absoluteX hhll)) shiftedRight) s

/-- R197, opcode 0x4A. -/
def execLsrAccumulator (s : State) : Host.Outcome State Fault Refusal :=
  perform 0x4A (modifying .accumulator shiftedRight) s

/-! ### ROL -/

/-- R198: result and status word; the old Carry is that of the status word. -/
def rotatedLeft (p v : Byte) : Byte × Byte :=
  let r := rotateLeft (flag p carryBit) v
  (r.result, withShift p r)

/-- R198, opcode 0x26. -/
def execRolZeroPage (nn : Byte) (s : State) : Host.Outcome State Fault Refusal :=
  perform 0x26 (modifying (.memory (.zeroPage nn)) rotatedLeft) s

/-- R198, opcode 0x36. -/
def execRolZeroPageX (nn : Byte) (s : State) : Host.Outcome State Fault Refusal :=
  perform 0x36 (modifying (.memory (.zeroPageX nn)) rotatedLeft) s

/-- R198, opcode 0x2E. -/
def execRolAbsolute (hhll : Word) (s : State) : Host.Outcome State Fault Refusal :=
  perform 0x2E (modifying (.memory (.absolute hhll)) rotatedLeft) s

/-- R198, opcode 0x3E. -/
def execRolAbsoluteX (hhll : Word) (s : State) : Host.Outcome State Fault Refusal :=
  perform 0x3E (modifying (.memory (.absoluteX hhll)) rotatedLeft) s

/-- R198, opcode 0x2A. -/
def execRolAccumulator (s : State) : Host.Outcome State Fault Refusal :=
  perform 0x2A (modifying .accumulator rotatedLeft) s

/-! ### ROR -/

/-- R199: result and status word; the old Carry is that of the status word. -/
def rotatedRight (p v : Byte) : Byte × Byte :=
  let r := rotateRight (flag p carryBit) v
  (r.result, withShift p r)

/-- R199, opcode 0x66. -/
def execRorZeroPage (nn : Byte) (s : State) : Host.Outcome State Fault Refusal :=
  perform 0x66 (modifying (.memory (.zeroPage nn)) rotatedRight) s

/-- R199, opcode 0x76. -/
def execRorZeroPageX (nn : Byte) (s : State) : Host.Outcome State Fault Refusal :=
  perform 0x76 (modifying (.memory (.zeroPageX nn)) rotatedRight) s

/-- R199, opcode 0x6E. -/
def execRorAbsolute (hhll : Word) (s : State) : Host.Outcome State Fault Refusal :=
  perform 0x6E (modifying (.memory (.absolute hhll)) rotatedRight) s

/-- R199, opcode 0x7E. -/
def execRorAbsoluteX (hhll : Word) (s : State) : Host.Outcome State Fault Refusal :=
  perform 0x7E (modifying (.memory (.absoluteX hhll)) rotatedRight) s

/-- R199, opcode 0x6A. -/
def execRorAccumulator (s : State) : Host.Outcome State Fault Refusal :=
  perform 0x6A (modifying .accumulator rotatedRight) s

end Sys2Proof.Machine
end

