-- ==== Sys2Proof/Machine/System.lean ====
section
/-! DEFINITION. System and flag instructions and the Unimplemented variant (48_system.md R255 to R267). For each mnemonic its effect once,
then a meaning for each of its opcode bytes. -/

namespace Sys2Proof.Machine

/-! ### BRK -/

/-- R256: interrupt entry with the break flag set; the pushed address is `opaddr + 2`. -/
def softwareInterrupt (s : State) : State :=
  s.enterHandler (s.pc + 1) (statusPushedByInstruction s.p) irqVector

/-- R256, opcode 0x00. -/
def execBrk (s : State) : Host.Outcome State Fault Refusal :=
  perform 0x00 (implied softwareInterrupt) s

/-! ### RTI -/

/-- R257: P as PLP does, then PC, nothing added. -/
def interruptReturn (s : State) : State := s.returnFromInterrupt

/-- R257, opcode 0x40. -/
def execRti (s : State) : Host.Outcome State Fault Refusal :=
  perform 0x40 (implied interruptReturn) s

/-! ### NOP -/

/-- R258: nothing. -/
def noOperation (s : State) : State := s

/-- R258, opcode 0xEA. -/
def execNop (s : State) : Host.Outcome State Fault Refusal :=
  perform 0xEA (implied noOperation) s

/-! ### CLC -/

/-- R259: `P.C <- 0`. -/
def clearCarry (s : State) : State := s.setFlag carryBit false

/-- R259, opcode 0x18. -/
def execClc (s : State) : Host.Outcome State Fault Refusal :=
  perform 0x18 (implied clearCarry) s

/-! ### SEC -/

/-- R260: `P.C <- 1`. -/
def setCarry (s : State) : State := s.setFlag carryBit true

/-- R260, opcode 0x38. -/
def execSec (s : State) : Host.Outcome State Fault Refusal :=
  perform 0x38 (implied setCarry) s

/-! ### CLI -/

/-- R261: `P.I <- 0`. -/
def clearInterruptDisable (s : State) : State := s.setFlag interruptBit false

/-- R261, opcode 0x58. -/
def execCli (s : State) : Host.Outcome State Fault Refusal :=
  perform 0x58 (implied clearInterruptDisable) s

/-! ### SEI -/

/-- R262: `P.I <- 1`. -/
def setInterruptDisable (s : State) : State := s.setFlag interruptBit true

/-- R262, opcode 0x78. -/
def execSei (s : State) : Host.Outcome State Fault Refusal :=
  perform 0x78 (implied setInterruptDisable) s

/-! ### CLV -/

/-- R263: `P.V <- 0`. -/
def clearOverflow (s : State) : State := s.setFlag overflowBit false

/-- R263, opcode 0xB8. -/
def execClv (s : State) : Host.Outcome State Fault Refusal :=
  perform 0xB8 (implied clearOverflow) s

/-! ### CLD -/

/-- R264: `P.D <- 0`. -/
def clearDecimal (s : State) : State := s.setFlag decimalBit false

/-- R264, opcode 0xD8. -/
def execCld (s : State) : Host.Outcome State Fault Refusal :=
  perform 0xD8 (implied clearDecimal) s

/-! ### SED -/

/-- R265: `P.D <- 1`. -/
def setDecimal (s : State) : State := s.setFlag decimalBit true

/-- R265, opcode 0xF8. -/
def execSed (s : State) : Host.Outcome State Fault Refusal :=
  perform 0xF8 (implied setDecimal) s

/-! ### The Unimplemented variant -/

/-- R266: the step faults with the opcode byte and nothing of the instruction is applied. The latch that goes with the
fault is set by the step (Machine/Session.lean). -/
def execUnimplemented (opcode : Byte) (_s : State) : Host.Outcome State Fault Refusal :=
  .fault (.unimplementedOpcode opcode)

end Sys2Proof.Machine
end

