-- ==== Sys2Proof/Machine/Dispatch.lean ====
section
/-! DEFINITION. `Execute` dispatches on the instruction (40_execution_core.md R116): one arm for each constructor. -/

namespace Sys2Proof.Machine

def exec (i : Instr) (s : State) : Host.Outcome State Fault Refusal :=
  match i with
  | .ldaImmediate nn => Sys2Proof.Machine.execLdaImmediate nn s
  | .ldaZeroPage nn => Sys2Proof.Machine.execLdaZeroPage nn s
  | .ldaZeroPageX nn => Sys2Proof.Machine.execLdaZeroPageX nn s
  | .ldaAbsolute hhll => Sys2Proof.Machine.execLdaAbsolute hhll s
  | .ldaAbsoluteX hhll => Sys2Proof.Machine.execLdaAbsoluteX hhll s
  | .ldaAbsoluteY hhll => Sys2Proof.Machine.execLdaAbsoluteY hhll s
  | .ldaIndirectX nn => Sys2Proof.Machine.execLdaIndirectX nn s
  | .ldaIndirectY nn => Sys2Proof.Machine.execLdaIndirectY nn s
  | .ldxImmediate nn => Sys2Proof.Machine.execLdxImmediate nn s
  | .ldxZeroPage nn => Sys2Proof.Machine.execLdxZeroPage nn s
  | .ldxZeroPageY nn => Sys2Proof.Machine.execLdxZeroPageY nn s
  | .ldxAbsolute hhll => Sys2Proof.Machine.execLdxAbsolute hhll s
  | .ldxAbsoluteY hhll => Sys2Proof.Machine.execLdxAbsoluteY hhll s
  | .ldyImmediate nn => Sys2Proof.Machine.execLdyImmediate nn s
  | .ldyZeroPage nn => Sys2Proof.Machine.execLdyZeroPage nn s
  | .ldyZeroPageX nn => Sys2Proof.Machine.execLdyZeroPageX nn s
  | .ldyAbsolute hhll => Sys2Proof.Machine.execLdyAbsolute hhll s
  | .ldyAbsoluteX hhll => Sys2Proof.Machine.execLdyAbsoluteX hhll s
  | .staZeroPage nn => Sys2Proof.Machine.execStaZeroPage nn s
  | .staZeroPageX nn => Sys2Proof.Machine.execStaZeroPageX nn s
  | .staAbsolute hhll => Sys2Proof.Machine.execStaAbsolute hhll s
  | .staAbsoluteX hhll => Sys2Proof.Machine.execStaAbsoluteX hhll s
  | .staAbsoluteY hhll => Sys2Proof.Machine.execStaAbsoluteY hhll s
  | .staIndirectX nn => Sys2Proof.Machine.execStaIndirectX nn s
  | .staIndirectY nn => Sys2Proof.Machine.execStaIndirectY nn s
  | .stxZeroPage nn => Sys2Proof.Machine.execStxZeroPage nn s
  | .stxZeroPageY nn => Sys2Proof.Machine.execStxZeroPageY nn s
  | .stxAbsolute hhll => Sys2Proof.Machine.execStxAbsolute hhll s
  | .styZeroPage nn => Sys2Proof.Machine.execStyZeroPage nn s
  | .styZeroPageX nn => Sys2Proof.Machine.execStyZeroPageX nn s
  | .styAbsolute hhll => Sys2Proof.Machine.execStyAbsolute hhll s
  | .tax => Sys2Proof.Machine.execTax s
  | .tay => Sys2Proof.Machine.execTay s
  | .txa => Sys2Proof.Machine.execTxa s
  | .tya => Sys2Proof.Machine.execTya s
  | .tsx => Sys2Proof.Machine.execTsx s
  | .txs => Sys2Proof.Machine.execTxs s
  | .adcImmediate nn => Sys2Proof.Machine.execAdcImmediate nn s
  | .adcZeroPage nn => Sys2Proof.Machine.execAdcZeroPage nn s
  | .adcZeroPageX nn => Sys2Proof.Machine.execAdcZeroPageX nn s
  | .adcAbsolute hhll => Sys2Proof.Machine.execAdcAbsolute hhll s
  | .adcAbsoluteX hhll => Sys2Proof.Machine.execAdcAbsoluteX hhll s
  | .adcAbsoluteY hhll => Sys2Proof.Machine.execAdcAbsoluteY hhll s
  | .adcIndirectX nn => Sys2Proof.Machine.execAdcIndirectX nn s
  | .adcIndirectY nn => Sys2Proof.Machine.execAdcIndirectY nn s
  | .sbcImmediate nn => Sys2Proof.Machine.execSbcImmediate nn s
  | .sbcZeroPage nn => Sys2Proof.Machine.execSbcZeroPage nn s
  | .sbcZeroPageX nn => Sys2Proof.Machine.execSbcZeroPageX nn s
  | .sbcAbsolute hhll => Sys2Proof.Machine.execSbcAbsolute hhll s
  | .sbcAbsoluteX hhll => Sys2Proof.Machine.execSbcAbsoluteX hhll s
  | .sbcAbsoluteY hhll => Sys2Proof.Machine.execSbcAbsoluteY hhll s
  | .sbcIndirectX nn => Sys2Proof.Machine.execSbcIndirectX nn s
  | .sbcIndirectY nn => Sys2Proof.Machine.execSbcIndirectY nn s
  | .incZeroPage nn => Sys2Proof.Machine.execIncZeroPage nn s
  | .incZeroPageX nn => Sys2Proof.Machine.execIncZeroPageX nn s
  | .incAbsolute hhll => Sys2Proof.Machine.execIncAbsolute hhll s
  | .incAbsoluteX hhll => Sys2Proof.Machine.execIncAbsoluteX hhll s
  | .decZeroPage nn => Sys2Proof.Machine.execDecZeroPage nn s
  | .decZeroPageX nn => Sys2Proof.Machine.execDecZeroPageX nn s
  | .decAbsolute hhll => Sys2Proof.Machine.execDecAbsolute hhll s
  | .decAbsoluteX hhll => Sys2Proof.Machine.execDecAbsoluteX hhll s
  | .inx => Sys2Proof.Machine.execInx s
  | .iny => Sys2Proof.Machine.execIny s
  | .dex => Sys2Proof.Machine.execDex s
  | .dey => Sys2Proof.Machine.execDey s
  | .andImmediate nn => Sys2Proof.Machine.execAndImmediate nn s
  | .andZeroPage nn => Sys2Proof.Machine.execAndZeroPage nn s
  | .andZeroPageX nn => Sys2Proof.Machine.execAndZeroPageX nn s
  | .andAbsolute hhll => Sys2Proof.Machine.execAndAbsolute hhll s
  | .andAbsoluteX hhll => Sys2Proof.Machine.execAndAbsoluteX hhll s
  | .andAbsoluteY hhll => Sys2Proof.Machine.execAndAbsoluteY hhll s
  | .andIndirectX nn => Sys2Proof.Machine.execAndIndirectX nn s
  | .andIndirectY nn => Sys2Proof.Machine.execAndIndirectY nn s
  | .oraImmediate nn => Sys2Proof.Machine.execOraImmediate nn s
  | .oraZeroPage nn => Sys2Proof.Machine.execOraZeroPage nn s
  | .oraZeroPageX nn => Sys2Proof.Machine.execOraZeroPageX nn s
  | .oraAbsolute hhll => Sys2Proof.Machine.execOraAbsolute hhll s
  | .oraAbsoluteX hhll => Sys2Proof.Machine.execOraAbsoluteX hhll s
  | .oraAbsoluteY hhll => Sys2Proof.Machine.execOraAbsoluteY hhll s
  | .oraIndirectX nn => Sys2Proof.Machine.execOraIndirectX nn s
  | .oraIndirectY nn => Sys2Proof.Machine.execOraIndirectY nn s
  | .eorImmediate nn => Sys2Proof.Machine.execEorImmediate nn s
  | .eorZeroPage nn => Sys2Proof.Machine.execEorZeroPage nn s
  | .eorZeroPageX nn => Sys2Proof.Machine.execEorZeroPageX nn s
  | .eorAbsolute hhll => Sys2Proof.Machine.execEorAbsolute hhll s
  | .eorAbsoluteX hhll => Sys2Proof.Machine.execEorAbsoluteX hhll s
  | .eorAbsoluteY hhll => Sys2Proof.Machine.execEorAbsoluteY hhll s
  | .eorIndirectX nn => Sys2Proof.Machine.execEorIndirectX nn s
  | .eorIndirectY nn => Sys2Proof.Machine.execEorIndirectY nn s
  | .bitZeroPage nn => Sys2Proof.Machine.execBitZeroPage nn s
  | .bitAbsolute hhll => Sys2Proof.Machine.execBitAbsolute hhll s
  | .aslZeroPage nn => Sys2Proof.Machine.execAslZeroPage nn s
  | .aslZeroPageX nn => Sys2Proof.Machine.execAslZeroPageX nn s
  | .aslAbsolute hhll => Sys2Proof.Machine.execAslAbsolute hhll s
  | .aslAbsoluteX hhll => Sys2Proof.Machine.execAslAbsoluteX hhll s
  | .aslAccumulator => Sys2Proof.Machine.execAslAccumulator s
  | .lsrZeroPage nn => Sys2Proof.Machine.execLsrZeroPage nn s
  | .lsrZeroPageX nn => Sys2Proof.Machine.execLsrZeroPageX nn s
  | .lsrAbsolute hhll => Sys2Proof.Machine.execLsrAbsolute hhll s
  | .lsrAbsoluteX hhll => Sys2Proof.Machine.execLsrAbsoluteX hhll s
  | .lsrAccumulator => Sys2Proof.Machine.execLsrAccumulator s
  | .rolZeroPage nn => Sys2Proof.Machine.execRolZeroPage nn s
  | .rolZeroPageX nn => Sys2Proof.Machine.execRolZeroPageX nn s
  | .rolAbsolute hhll => Sys2Proof.Machine.execRolAbsolute hhll s
  | .rolAbsoluteX hhll => Sys2Proof.Machine.execRolAbsoluteX hhll s
  | .rolAccumulator => Sys2Proof.Machine.execRolAccumulator s
  | .rorZeroPage nn => Sys2Proof.Machine.execRorZeroPage nn s
  | .rorZeroPageX nn => Sys2Proof.Machine.execRorZeroPageX nn s
  | .rorAbsolute hhll => Sys2Proof.Machine.execRorAbsolute hhll s
  | .rorAbsoluteX hhll => Sys2Proof.Machine.execRorAbsoluteX hhll s
  | .rorAccumulator => Sys2Proof.Machine.execRorAccumulator s
  | .cmpImmediate nn => Sys2Proof.Machine.execCmpImmediate nn s
  | .cmpZeroPage nn => Sys2Proof.Machine.execCmpZeroPage nn s
  | .cmpZeroPageX nn => Sys2Proof.Machine.execCmpZeroPageX nn s
  | .cmpAbsolute hhll => Sys2Proof.Machine.execCmpAbsolute hhll s
  | .cmpAbsoluteX hhll => Sys2Proof.Machine.execCmpAbsoluteX hhll s
  | .cmpAbsoluteY hhll => Sys2Proof.Machine.execCmpAbsoluteY hhll s
  | .cmpIndirectX nn => Sys2Proof.Machine.execCmpIndirectX nn s
  | .cmpIndirectY nn => Sys2Proof.Machine.execCmpIndirectY nn s
  | .cpxImmediate nn => Sys2Proof.Machine.execCpxImmediate nn s
  | .cpxZeroPage nn => Sys2Proof.Machine.execCpxZeroPage nn s
  | .cpxAbsolute hhll => Sys2Proof.Machine.execCpxAbsolute hhll s
  | .cpyImmediate nn => Sys2Proof.Machine.execCpyImmediate nn s
  | .cpyZeroPage nn => Sys2Proof.Machine.execCpyZeroPage nn s
  | .cpyAbsolute hhll => Sys2Proof.Machine.execCpyAbsolute hhll s
  | .bpl nn => Sys2Proof.Machine.execBpl nn s
  | .bmi nn => Sys2Proof.Machine.execBmi nn s
  | .bvc nn => Sys2Proof.Machine.execBvc nn s
  | .bvs nn => Sys2Proof.Machine.execBvs nn s
  | .bcc nn => Sys2Proof.Machine.execBcc nn s
  | .bcs nn => Sys2Proof.Machine.execBcs nn s
  | .bne nn => Sys2Proof.Machine.execBne nn s
  | .beq nn => Sys2Proof.Machine.execBeq nn s
  | .jmpAbsolute hhll => Sys2Proof.Machine.execJmpAbsolute hhll s
  | .jmpIndirect hhll => Sys2Proof.Machine.execJmpIndirect hhll s
  | .jsr hhll => Sys2Proof.Machine.execJsr hhll s
  | .rts => Sys2Proof.Machine.execRts s
  | .pha => Sys2Proof.Machine.execPha s
  | .pla => Sys2Proof.Machine.execPla s
  | .php => Sys2Proof.Machine.execPhp s
  | .plp => Sys2Proof.Machine.execPlp s
  | .brk => Sys2Proof.Machine.execBrk s
  | .rti => Sys2Proof.Machine.execRti s
  | .nop => Sys2Proof.Machine.execNop s
  | .clc => Sys2Proof.Machine.execClc s
  | .sec => Sys2Proof.Machine.execSec s
  | .cli => Sys2Proof.Machine.execCli s
  | .sei => Sys2Proof.Machine.execSei s
  | .clv => Sys2Proof.Machine.execClv s
  | .cld => Sys2Proof.Machine.execCld s
  | .sed => Sys2Proof.Machine.execSed s
  | .unimplemented opcode => Sys2Proof.Machine.execUnimplemented opcode s

end Sys2Proof.Machine
end

