-- ==== Sys2Proof/Machine/Trace.lean ====
section
/-! DEFINITION. Trace capture (49_trace_verifier.md R280 to R283). -/

namespace Sys2Proof.Machine

/-- `Snapshot(opaddr, spec)` (R281), in the state before the instruction changes anything. -/
def snapshot (opaddr : Word) (spec : InstructionSpec) (s : State) : TraceEntry where
  pc    := opaddr
  bytes := (List.range spec.length).map fun i => s.read (opaddr + BitVec.ofNat 16 i)
  a     := s.a
  x     := s.x
  y     := s.y
  p     := s.p
  sp    := s.sp
  cyc   := s.cyc

/-- The entry of the instruction at PC (S2 and S4 of 40_execution_core.md R112). -/
def State.entryAtPc (s : State) : TraceEntry := snapshot s.pc (decodeSpec (s.read s.pc)) s

/-- `record(entry)` (R283): appended when the recording is on, dropped otherwise. -/
def State.record (s : State) (e : TraceEntry) : State :=
  if s.recorder.recording then s.setRecorder { s.recorder with entries := s.recorder.entries ++ [e] }
  else s

end Sys2Proof.Machine
end

