-- ==== Sys2Proof/Machine/Session.lean ====
section
/-! DEFINITION. A call of `step()` with its outcome, its Trace Entry and the state it leaves (40_execution_core.md R111,
R112), and the rest of the host surface: `reset`, the interrupt requests, the accessors, the harness's bus access, the
recorder's switch, session creation and the bounded runs (R120 to R127; 70_reset_and_hazards.md R340, R341). -/

namespace Sys2Proof.Machine

/-! ### step() -/

/-- The outcome of a call of `step()` (R111), each with the state the call leaves. -/
inductive StepResult where
  | ok (entry : TraceEntry) (after : State)
  | fault (condition : Fault) (after : State)
  /-- no instruction of this model answers so -/
  | refused (why : Refusal) (after : State)
deriving DecidableEq, Repr

/-- The state after a fault at S3 (48_system.md R266): the halted latch and nothing else. -/
def State.afterFault (s : State) : Fault → State
  | .unimplementedOpcode b => s.latchHalt b

/-- S2 to S9 of R112, in the state the interrupt check has left. -/
def runInstruction (s : State) : StepResult :=
  match exec s.fetch s with
  | .next t => .ok s.entryAtPc (t.record s.entryAtPc)
  | .fault f => .fault f (s.afterFault f)
  | .refused r => .refused r s

/-- `step()` (R112): S0 the halted latch, S1 the interrupt check, then one instruction. -/
def callStep (s : State) : StepResult :=
  match s.halted with
  | some b => .fault (.unimplementedOpcode b) s
  | none => runInstruction s.checkInterrupts

/-- The state a call of `step()` leaves, whatever its outcome. -/
def StepResult.after : StepResult → State
  | .ok _ t => t
  | .fault _ t => t
  | .refused _ t => t

/-- The outcome in the host's form, which has no place for the entry, nor for the state a fault leaves. -/
def StepResult.outcome : StepResult → Host.Outcome State Fault Refusal
  | .ok _ t => .next t
  | .fault f _ => .fault f
  | .refused r _ => .refused r

/-! ### The other calls -/

/-- `reset()` (70_reset_and_hazards.md R340; 10_state.md R40). `halted`, storage and the recorder stay as they are. -/
def State.resetCall (s : State) : State :=
  let t := { s with a := 0x00, x := 0x00, y := 0x00, sp := 0xFD, p := 0x24, nmiPending := false, irqPending := false }
  (t.setPc (t.read16 resetVector)).addCyc t.platform.resetCycles

/-- `request_nmi()` (R123). -/
def State.requestNmi (s : State) : State := s.setNmi true

/-- `request_irq()` (R124). -/
def State.requestIrq (s : State) : State := s.setIrq true

/-- The recording is opted into by the caller (49_trace_verifier.md R283). -/
def State.startRecording (s : State) : State := s.setRecorder { s.recorder with recording := true }

/-- What the host may do between two steps (R121 to R126). -/
inductive HostCall where
  | step
  | reset
  | requestNmi
  | requestIrq
  | startRecording
  /-- the harness's direct bus write (R125) -/
  | busWrite (a : Word) (v : Byte)
deriving DecidableEq, Repr

/-- The state a host call leaves. -/
def State.call (s : State) : HostCall → State
  | .step => (callStep s).after
  | .reset => s.resetCall
  | .requestNmi => s.requestNmi
  | .requestIrq => s.requestIrq
  | .startRecording => s.startRecording
  | .busWrite a v => s.write a v

/-- The state after a sequence of host calls. -/
def State.calls (s : State) : List HostCall → State
  | [] => s
  | c :: cs => (s.call c).calls cs

/-! ### Accessors (R125): the registers, each flag, the cycle count. They change nothing. -/

def State.accessCarry (s : State) : Bool := flag s.p carryBit
def State.accessZero (s : State) : Bool := flag s.p zeroBit
def State.accessInterruptDisable (s : State) : Bool := flag s.p interruptBit
def State.accessDecimal (s : State) : Bool := flag s.p decimalBit
def State.accessBreak (s : State) : Bool := flag s.p breakBit
def State.accessUnused (s : State) : Bool := flag s.p unusedBit
def State.accessOverflow (s : State) : Bool := flag s.p overflowBit
def State.accessNegative (s : State) : Bool := flag s.p negativeBit

/-- What the accessors show; A, X, Y, SP, PC, P and CYC are the fields of the state itself. -/
structure Inspection where
  a : Byte
  x : Byte
  y : Byte
  sp : Byte
  pc : Word
  p : Byte
  cyc : Nat
deriving DecidableEq, Repr

def State.inspect (s : State) : Inspection := ⟨s.a, s.x, s.y, s.sp, s.pc, s.p, s.cyc⟩

/-! ### Session creation (70_reset_and_hazards.md R341; 20_memory.md R66) -/

/-- The parameters of a session (00_scope.md R7). `INIT_MEM` is written as the cells that differ from `blankByte`. -/
structure SessionParameters where
  platform : Platform := {}
  initMem : List (Word × Byte) := []
  image : List Byte := []
  /-- DESIGN CHOICE (log 10): R7 and D28 give `LOAD_ADDRESS` no default, and a session that names none has 0x0000 here.
  The default of `image` is empty, so the choice shows only where an image is given without its address. -/
  loadAddress : Word := 0x0000
deriving DecidableEq, Repr

/-- Storage with these cells written, one after the other. -/
def storeCells : Memory → List (Word × Byte) → Memory
  | m, [] => m
  | m, (a, v) :: rest => storeCells (Memory.set m a.toNat v) rest

/-- `LoadImage` (R66): straight into storage, past `Writable`. -/
def loadImage (pf : Platform) : Memory → Word → List Byte → Memory
  | m, _, [] => m
  | m, a, v :: rest => loadImage pf (Memory.set m (canon pf a).toNat v) (a + 1) rest

/-- The state that session creation hands to `reset()` (10_state.md R41). -/
def placeholderState (pf : Platform) (m : Memory) : State where
  a := 0
  x := 0
  y := 0
  sp := 0
  pc := 0
  p := 0
  cyc := 0
  nmiPending := false
  irqPending := false
  halted := none
  mem := m
  platform := pf
  recorder := ⟨false, []⟩

/-- Power-on. None when the image does not fit below 65536 (R66: "a longer image is refused at session creation"). -/
def createSession (c : SessionParameters) : Option State :=
  if c.loadAddress.toNat + c.image.length ≤ 65536 then
    some (placeholderState c.platform
      (loadImage c.platform (storeCells [] c.initMem) c.loadAddress c.image)).resetCall
  else none

/-! ### Bounded runs (R120) -/

/-- What a bounded run gives its caller: the entries, the fault if one ended it, the state it leaves. -/
structure RunResult where
  entries : List TraceEntry
  stopped : Option Fault
  after : State
deriving DecidableEq, Repr

/-- `Run(n)`. -/
def runSteps : Nat → State → RunResult
  | 0, s => ⟨[], none, s⟩
  | n + 1, s =>
    match callStep s with
    | .ok e t => let r := runSteps n t; ⟨e :: r.entries, r.stopped, r.after⟩
    | .fault f t => ⟨[], some f, t⟩
    | .refused _ t => ⟨[], none, t⟩

/-- `RunUntil(addr, fuel)`: the address is tested before each step. -/
def runUntil (addr : Word) : Nat → State → RunResult
  | 0, s => ⟨[], none, s⟩
  | fuel + 1, s =>
    if s.pc = addr then ⟨[], none, s⟩
    else
      match callStep s with
      | .ok e t => let r := runUntil addr fuel t; ⟨e :: r.entries, r.stopped, r.after⟩
      | .fault f t => ⟨[], some f, t⟩
      | .refused _ t => ⟨[], none, t⟩

/-! ### An instruction placed where the next step fetches it (log 5) -/

/-- Ready to fetch at PC: not halted, and no request that the interrupt check of the next step would serve. -/
def State.readyToFetch (s : State) : State :=
  { s with halted := none, nmiPending := false, irqPending := s.irqPending && flag s.p interruptBit }

/-- Bytes placed from an address on, straight into storage as an image is. -/
def State.placeBytes (s : State) (a : Word) (bytes : List Byte) : State :=
  s.setMem (loadImage s.platform s.mem a bytes)

end Sys2Proof.Machine
end

