-- ==== Sys2Proof/Machine/Step.lean ====
section
/-! DEFINITION. One step in the host's form (40_execution_core.md R112), and the placing of an instruction where the next
step fetches it. -/

namespace Sys2Proof.Machine

/-- `step()`. `callStep` says the same with the Trace Entry and with the state that a fault leaves. -/
def step (s : State) : Host.Outcome State Fault Refusal := (callStep s).outcome

/-- The session with the bytes of a table word at PC and nothing pending that would keep the next step from fetching
there (log 5). -/
def State.withFetchWord (s : State) (nbits w : Nat) : State :=
  s.readyToFetch.placeBytes s.pc (tableBytes nbits w)

end Sys2Proof.Machine
end

