-- ==== Sys2Proof/Machine/Verifier.lean ====
section
/-! DEFINITION. The reference-log parser and the comparator (49_trace_verifier.md R284 to R293), pure functions that read
no core state. A text is a list of characters. A Reference Log Entry has the shape of a Trace Entry (R284). log 8. -/

namespace Sys2Proof.Machine

/-! ### Characters -/

/-- The place of a character in the run of `count` consecutive characters that starts with `first`. -/
def placeInRun (first : Char) (count : Nat) (c : Char) : Option Nat :=
  (List.range count).find? fun k => first.toNat + k == c.toNat

/-- The value of a decimal digit. -/
def decimalDigitValue : Char → Option Nat := placeInRun '0' 10

/-- The value of a hexadecimal digit, either case (R285): the letters follow the ten decimal digits. -/
def hexDigitValue (c : Char) : Option Nat :=
  let letter := (placeInRun 'A' 6 c).or (placeInRun 'a' 6 c)
  (decimalDigitValue c).or (letter.map (10 + ·))

/-- Two hexadecimal digits as a byte. -/
def hexByte (h l : Char) : Option Byte :=
  match hexDigitValue h, hexDigitValue l with
  | some a, some b => some (BitVec.ofNat 8 (16 * a + b))
  | _, _ => none

/-- A character list read as `A:hh`-like text: the literal label, then one byte, then the rest. -/
def labelledByte : List Char → List Char → Option (Byte × List Char)
  | [], h :: l :: rest =>
    match hexByte h l with
    | some v => some (v, rest)
    | none => none
  | [], _ => none
  | k :: label, c :: rest => if k = c then labelledByte label rest else none
  | _ :: _, [] => none

/-! ### The columns of a line (R285) -/

/-- Columns `lo` to `hi - 1`. -/
def columns (lo hi : Nat) (line : List Char) : List Char := (line.drop lo).take (hi - lo)

/-- Columns 0 to 3. -/
def parsePc : List Char → Option Word
  | [c0, c1, c2, c3] =>
    match hexByte c0 c1, hexByte c2 c3 with
    | some h, some l => some (joinBytes h l)
    | _, _ => none
  | _ => none

/-- Columns 6 to 13: one, two or three groups of two digits, one space between groups, spaces to the end. -/
def parseBytes : List Char → Option (List Byte)
  | [a, b, ' ', c, d, ' ', e, f] =>
    match hexByte a b with
    | none => none
    | some v0 =>
      match hexByte c d with
      | none => if [c, d, e, f] = [' ', ' ', ' ', ' '] then some [v0] else none
      | some v1 =>
        match hexByte e f with
        | none => if [e, f] = [' ', ' '] then some [v0, v1] else none
        | some v2 => some [v0, v1, v2]
  | _ => none

/-- The five bytes of columns 48 to 72. -/
structure RegisterColumns where
  a : Byte
  x : Byte
  y : Byte
  p : Byte
  sp : Byte
deriving DecidableEq, Repr

/-- Columns 48 to 72: `A:hh X:hh Y:hh P:hh SP:hh`. -/
def parseRegisters (cs : List Char) : Option RegisterColumns :=
  match labelledByte ['A', ':'] cs with
  | none => none
  | some (a, cs) =>
    match labelledByte [' ', 'X', ':'] cs with
    | none => none
    | some (x, cs) =>
      match labelledByte [' ', 'Y', ':'] cs with
      | none => none
      | some (y, cs) =>
        match labelledByte [' ', 'P', ':'] cs with
        | none => none
        | some (p, cs) =>
          match labelledByte [' ', 'S', 'P', ':'] cs with
          | some (sp, []) => some ⟨a, x, y, p, sp⟩
          | _ => none

/-- The decimal digits at the head of a text, after the number `acc` read so far. -/
def decimalFrom (acc : Nat) : List Char → Nat
  | [] => acc
  | c :: rest =>
    match decimalDigitValue c with
    | some d => decimalFrom (10 * acc + d) rest
    | none => acc

/-- Zero or more spaces, then one or more decimal digits; what follows is ignored. -/
def parseDecimalAfterSpaces : List Char → Option Nat
  | [] => none
  | c :: rest =>
    if c = ' ' then parseDecimalAfterSpaces rest
    else
      match decimalDigitValue c with
      | some d => some (decimalFrom d rest)
      | none => none

/-- The cycle count if `CYC:` and its number stand at the head of the text. -/
def cycleHere : List Char → Option Nat
  | 'C' :: 'Y' :: 'C' :: ':' :: rest => parseDecimalAfterSpaces rest
  | _ => none

/-- The cycle count of columns 73 on: the first place where `CYC:` and a number stand. -/
def parseCycle : List Char → Option Nat
  | [] => none
  | c :: rest =>
    match cycleHere (c :: rest) with
    | some n => some n
    | none => parseCycle rest

/-! ### Lines and texts (R286, R287) -/

/-- The five reasons of R287. -/
inductive ParseReason where
  | shortLine | badPC | badBytes | badRegisters | badCycle
deriving DecidableEq, Repr

/-- A parsed line, or the first reason of R287 that applies. -/
inductive LineResult where
  | entry (e : TraceEntry)
  | malformed (reason : ParseReason)
deriving DecidableEq, Repr

/-- One line (R285, R287). -/
def parseLine (line : List Char) : LineResult :=
  if line.length < 73 then .malformed .shortLine
  else
    match parsePc (columns 0 4 line) with
    | none => .malformed .badPC
    | some pc =>
      if columns 4 6 line ≠ [' ', ' '] then .malformed .badBytes
      else
        match parseBytes (columns 6 14 line) with
        | none => .malformed .badBytes
        | some bytes =>
          match parseRegisters (columns 48 73 line) with
          | none => .malformed .badRegisters
          | some r =>
            match parseCycle (line.drop 73) with
            | none => .malformed .badCycle
            | some cyc => .entry ⟨pc, bytes, r.a, r.x, r.y, r.p, r.sp, cyc⟩

/-- The text cut at line feeds: always at least one segment. -/
def splitLines : List Char → List (List Char)
  | [] => [[]]
  | c :: rest =>
    if c = '\n' then [] :: splitLines rest
    else
      match splitLines rest with
      | [] => [[c]]
      | segment :: segments => (c :: segment) :: segments

/-- A line without one trailing carriage return. -/
def dropCarriageReturn (line : List Char) : List Char :=
  if line.getLast? = some '\r' then line.dropLast else line

/-- The segments without an empty last one. -/
def dropEmptyLast (segments : List (List Char)) : List (List Char) :=
  if segments.getLast? = some [] then segments.dropLast else segments

/-- The lines of a text, by the steps of R286 in their order. -/
def linesOf (text : List Char) : List (List Char) :=
  dropEmptyLast ((splitLines text).map dropCarriageReturn)

/-- What `ParseLog` answers. -/
inductive ParseResult where
  | entries (es : List TraceEntry)
  /-- `MalformedReferenceLog(line_number, reason)`: the line number counts from 1 -/
  | malformedReferenceLog (line : Nat) (reason : ParseReason)
deriving DecidableEq, Repr

/-- The lines from number `n` on, in order, up to the first malformed one. -/
def parseLines (n : Nat) : List (List Char) → ParseResult
  | [] => .entries []
  | line :: rest =>
    match parseLine line with
    | .malformed reason => .malformedReferenceLog n reason
    | .entry e =>
      match parseLines (n + 1) rest with
      | .entries es => .entries (e :: es)
      | .malformedReferenceLog m reason => .malformedReferenceLog m reason

/-- `ParseLog(text)` (R286). -/
def parseLog (text : List Char) : ParseResult := parseLines 1 (linesOf text)

/-! ### FormatEntry (R288) -/

/-- An upper-case hexadecimal digit. -/
def hexDigit (n : Nat) : Char :=
  (Nat.digitChar n).toUpper

/-- A byte as two digits. -/
def formatByte (v : Byte) : List Char := [hexDigit (v.toNat / 16), hexDigit (v.toNat % 16)]

/-- The bytes with one space between them. -/
def formatBytes : List Byte → List Char
  | [] => []
  | [v] => formatByte v
  | v :: rest => formatByte v ++ ' ' :: formatBytes rest

/-- The decimal digits of `n` before `acc`; `fuel` above the number of digits. -/
def decimalDigits : Nat → Nat → List Char → List Char
  | 0, _, acc => acc
  | fuel + 1, n, acc =>
    let acc := hexDigit (n % 10) :: acc
    if n < 10 then acc else decimalDigits fuel (n / 10) acc

/-- A natural number in decimal. -/
def formatDecimal (n : Nat) : List Char := decimalDigits (n + 1) n []

/-- A text with spaces after it to `width` columns. -/
def padTo (width : Nat) (cs : List Char) : List Char := cs ++ List.replicate (width - cs.length) ' '

/-- `FormatEntry(e)` (R288). -/
def formatEntry (e : TraceEntry) : List Char :=
  formatByte (hiByte e.pc) ++ formatByte (loByte e.pc) ++ [' ', ' '] ++ padTo 8 (formatBytes e.bytes) ++
  List.replicate 34 ' ' ++
  ['A', ':'] ++ formatByte e.a ++ [' ', 'X', ':'] ++ formatByte e.x ++ [' ', 'Y', ':'] ++ formatByte e.y ++
  [' ', 'P', ':'] ++ formatByte e.p ++ [' ', 'S', 'P', ':'] ++ formatByte e.sp ++
  [' ', 'C', 'Y', 'C', ':'] ++ formatDecimal e.cyc

/-! ### The comparator (R289 to R293) -/

/-- The fields of an entry (R280). -/
inductive TraceField where
  | pc | bytes | a | x | y | p | sp | cyc
deriving DecidableEq, Repr

/-- What a mismatch names: a field of an entry, or the length of the sequences (R290). -/
inductive MismatchField where
  | entry (f : TraceField)
  | length
deriving DecidableEq, Repr

/-- What a field holds. -/
inductive FieldValue where
  | number (n : Nat)
  | bytes (vs : List Byte)
deriving DecidableEq, Repr

/-- `VerificationResult` (R293). `context` is the PC of the produced entry (R289, R290), none where there is no entry. -/
inductive VerificationResult where
  | matched
  | traceMismatch (index : Nat) (field : MismatchField) (expected actual : FieldValue) (context : Option Word)
deriving DecidableEq, Repr

/-- A field of an entry. -/
def TraceEntry.field (e : TraceEntry) : TraceField → FieldValue
  | .pc => .number e.pc.toNat
  | .bytes => .bytes e.bytes
  | .a => .number e.a.toNat
  | .x => .number e.x.toNat
  | .y => .number e.y.toNat
  | .p => .number e.p.toNat
  | .sp => .number e.sp.toNat
  | .cyc => .number e.cyc

/-- The order of R290. -/
def comparedFields : List TraceField := [.pc, .bytes, .a, .x, .y, .p, .sp, .cyc]

/-- The first field in which two entries differ. -/
def firstDifference (produced reference : TraceEntry) : Option TraceField :=
  comparedFields.find? fun f => decide (produced.field f ≠ reference.field f)

/-- The loop of R290 from entry `i` on, for sequences whose whole lengths are `np` and `nr`. -/
def compareFrom (np nr : Nat) : Nat → List TraceEntry → List TraceEntry → VerificationResult
  | i, e :: produced, r :: reference =>
    match firstDifference e r with
    | some f => .traceMismatch i (.entry f) (r.field f) (e.field f) (some e.pc)
    | none => compareFrom np nr (i + 1) produced reference
  | i, _, _ => if np = nr then .matched else .traceMismatch i .length (.number nr) (.number np) none

/-- A sequence cut at `RUN_CAP` if there is one (R290, R291). -/
def capped (cap : Option Nat) (es : List TraceEntry) : List TraceEntry :=
  match cap with
  | some n => es.take n
  | none => es

/-- `compare(produced, reference)` (R289, R290). -/
def compareTraces (cap : Option Nat) (produced reference : List TraceEntry) : VerificationResult :=
  let p := capped cap produced
  let r := capped cap reference
  compareFrom p.length r.length 0 p r

/-- What a caller that verifies a run against a log text reports (R293). -/
inductive Verdict where
  | malformedReferenceLog (line : Nat) (reason : ParseReason)
  | compared (result : VerificationResult)
deriving DecidableEq, Repr

/-- Parse, then compare (R293). -/
def verifyAgainst (cap : Option Nat) (produced : List TraceEntry) (text : List Char) : Verdict :=
  match parseLog text with
  | .malformedReferenceLog line reason => .malformedReferenceLog line reason
  | .entries reference => .compared (compareTraces cap produced reference)

end Sys2Proof.Machine
end

