-- ==== Sys2Proof/Safety.lean ====
section
/-! DEFINITION. The terms claims use: a step that completes, a run that does, and the facts about a state that hold from
power-on through every step (10_state.md R28, R29; 49_trace_verifier.md R280; the canonical form of the storage). -/

namespace Sys2Proof.Machine

/-- The step executes an instruction (`Ok` of 40_execution_core.md R111). -/
def Completes (s : State) : Prop := ∃ t, step s = .next t

/-- `n` steps in a row complete. -/
def RunsSafely : Nat → State → Prop
  | 0, _ => True
  | n + 1, s => ∃ t, step s = .next t ∧ RunsSafely n t

/-- A Trace Entry as R280 describes it: one to three bytes, bit 5 of the status word 1 and bit 4 of it 0. -/
def TraceEntry.legal (e : TraceEntry) : Prop :=
  1 ≤ e.bytes.length ∧ e.bytes.length ≤ 3 ∧ flag e.p unusedBit = true ∧ flag e.p breakBit = false

/-- The invariant of a session: bit 5 of P reads as 1 (R28), bit 4 as 0 (R29), storage is in canonical form, and the
recorder holds legal entries. -/
structure State.Inv (s : State) : Prop where
  unused_one : flag s.p unusedBit = true
  break_zero : flag s.p breakBit = false
  mem_wf : Memory.wf s.mem = true
  entries_legal : ∀ e ∈ s.recorder.entries, e.legal

end Sys2Proof.Machine
end

