-- ==== Sys2Proof/Certificates/Slice0/Obligations.lean ====
section
/-! DEFINITION. The statements for the provers. First the words they are written in, then one definition for each
statement. A statement about every state is a statement about every platform (log 1). -/

namespace Sys2Proof.Claims

open Sys2Proof.Machine

/-! ### Words -/

/-- The instruction has this opcode byte and completes: PC goes past its `len` bytes, CYC grows by `cyc`, and every
other element is as in `t`. -/
def completesAs (opcode : Byte) (i : Instr) (s : State) (len : Word) (cyc : Nat) (t : State) : Prop :=
  i.opcode = opcode ∧ exec i s = .next { t with pc := s.pc + len, cyc := s.cyc + cyc }

/-- The instruction has this opcode byte and completes with PC at `pc`, CYC grown by `cyc`, and every other element as in
`t`. -/
def jumpsTo (opcode : Byte) (i : Instr) (s : State) (pc : Word) (cyc : Nat) (t : State) : Prop :=
  i.opcode = opcode ∧ exec i s = .next { t with pc := pc, cyc := s.cyc + cyc }

/-- An opcode byte with the instructions of one operand byte that have it. -/
abbrev ByteForm := Byte × (Byte → Instr)

/-- An opcode byte with the instructions of a 16-bit operand that have it. -/
abbrev WordForm := Byte × (Word → Instr)

/-- The cycle a page crossing adds: 1 when the base and the indexed address have different high bytes. -/
def crossing (base : Word) (index : Byte) : Nat :=
  if hiByte base ≠ hiByte (base + zeroExtend16 index) then 1 else 0

/-- The pointer in page zero at `p`, both bytes taken from page zero. -/
def pointerAt (s : State) (p : Byte) : Word := joinBytes (s.read (zeroExtend16 (p + 1))) (s.read (zeroExtend16 p))

/-- The answer of `Resolve` for a base and an index: their sum modulo 65536, crossing exactly when its high byte is not
the base's, which is exactly when the low byte of the base plus the index reaches 256. -/
def resolvesIndexed (r : Resolved) (base : Word) (index : Byte) : Prop :=
  r.ea = base + zeroExtend16 index ∧ (r.crossed = true ↔ hiByte base ≠ hiByte r.ea) ∧
  (r.crossed = true ↔ 256 ≤ (loByte base).toNat + index.toNat)

/-- The eight forms of LDA, ADC, SBC, AND, ORA, EOR and CMP, with opcode bytes, lengths, operands and cycles.
`after s m` is `s` with the instruction's own effect on the operand `m`. -/
def eightReadForms (immediate zeroPage zeroPageX : ByteForm) (absolute absoluteX absoluteY : WordForm)
    (indirectX indirectY : ByteForm) (after : State → Byte → State) : Prop :=
  ∀ (nn : Byte) (hhll : Word) (s : State),
    completesAs immediate.1 (immediate.2 nn) s 2 2 (after s nn) ∧
    completesAs zeroPage.1 (zeroPage.2 nn) s 2 3 (after s (s.read (zeroExtend16 nn))) ∧
    completesAs zeroPageX.1 (zeroPageX.2 nn) s 2 4 (after s (s.read (zeroExtend16 (nn + s.x)))) ∧
    completesAs absolute.1 (absolute.2 hhll) s 3 4 (after s (s.read hhll)) ∧
    completesAs absoluteX.1 (absoluteX.2 hhll) s 3 (4 + crossing hhll s.x) (after s (s.read (hhll + zeroExtend16 s.x))) ∧
    completesAs absoluteY.1 (absoluteY.2 hhll) s 3 (4 + crossing hhll s.y) (after s (s.read (hhll + zeroExtend16 s.y))) ∧
    completesAs indirectX.1 (indirectX.2 nn) s 2 6 (after s (s.read (pointerAt s (nn + s.x)))) ∧
    completesAs indirectY.1 (indirectY.2 nn) s 2 (5 + crossing (pointerAt s nn) s.y)
      (after s (s.read (pointerAt s nn + zeroExtend16 s.y)))

/-- The four memory forms of INC, DEC, ASL, LSR, ROL and ROR. `result` gives the byte written back, `status` the new P. -/
def fourModifyForms (zeroPage zeroPageX : ByteForm) (absolute absoluteX : WordForm)
    (result status : State → Byte → Byte) : Prop :=
  ∀ (nn : Byte) (hhll : Word) (s : State),
    let after := fun (ea : Word) => { s.write ea (result s (s.read ea)) with p := status s (s.read ea) }
    completesAs zeroPage.1 (zeroPage.2 nn) s 2 5 (after (zeroExtend16 nn)) ∧
    completesAs zeroPageX.1 (zeroPageX.2 nn) s 2 6 (after (zeroExtend16 (nn + s.x))) ∧
    completesAs absolute.1 (absolute.2 hhll) s 3 6 (after hhll) ∧
    completesAs absoluteX.1 (absoluteX.2 hhll) s 3 7 (after (hhll + zeroExtend16 s.x))

/-- The Accumulator form of ASL, LSR, ROL and ROR. -/
def accumulatorForm (opcode : Byte) (i : Instr) (result status : State → Byte → Byte) : Prop :=
  ∀ s : State, completesAs opcode i s 1 2 { s with a := result s s.a, p := status s s.a }

/-- A branch, taken or not, with its target and cycles. -/
def branchForm (branch : ByteForm) (cond : State → Bool) : Prop :=
  ∀ (nn : Byte) (s : State),
    let target := s.pc + 2 + signExtend16 nn
    (cond s = true →
      jumpsTo branch.1 (branch.2 nn) s target (2 + 1 + (if hiByte target ≠ hiByte s.pc then 1 else 0)) s) ∧
    (cond s = false → jumpsTo branch.1 (branch.2 nn) s (s.pc + 2) 2 s)

/-- The exact sum of an addition with carry. -/
def sumOf (s : State) (m : Byte) : Nat := s.a.toNat + m.toNat + (if flag s.p carryBit then 1 else 0)

/-- `Add(m)`: the sum narrowed to a byte, Carry from the exact sum, Overflow from the signs, Z and N. -/
def added (s : State) (m : Byte) : State :=
  let r : Byte := BitVec.ofNat 8 (sumOf s m)
  let v := decide (s.a.getLsbD 7 = m.getLsbD 7 ∧ s.a.getLsbD 7 ≠ r.getLsbD 7)
  { s with a := r, p := withZN (withFlag (withFlag s.p carryBit (decide (sumOf s m > 255))) overflowBit v) r }

/-- `Compare(reg, m)`. -/
def compared (s : State) (reg m : Byte) : State :=
  { s with p := withZN (withFlag s.p carryBit (decide (reg.toNat ≥ m.toNat))) (reg - m) }

/-- P after a shift or rotate with result `r` whose outgoing bit is `c`. -/
def shiftStatus (s : State) (c : Bool) (r : Byte) : Byte := withZN (withFlag s.p carryBit c) r

/-- The old Carry as a number. -/
def carryIn (s : State) : Nat := if flag s.p carryBit then 1 else 0

/-- The stack cell `n` below the stack pointer, offsets wrapping in page one. -/
def stackBelow (s : State) (n : Byte) : Word := 0x0100 + zeroExtend16 (s.sp - n)

/-- The stack cell `n` above the stack pointer. -/
def stackAbove (s : State) (n : Byte) : Word := 0x0100 + zeroExtend16 (s.sp + n)

/-- Three pushes: the return address, high byte first, then a status byte. -/
def pushedFrame (s : State) (returnTo : Word) (status : Byte) : State :=
  ((s.write (stackBelow s 0) (hiByte returnTo)).write (stackBelow s 1) (loByte returnTo)).write (stackBelow s 2) status

/-- The interrupt service for a vector, on a state whose pending flag is already cleared. -/
def served (s : State) (vector : Word) : State :=
  let m := pushedFrame s s.pc ((s.p &&& 0xEF) ||| 0x20)
  { m with sp := s.sp - 3, p := withFlag s.p interruptBit true,
           pc := joinBytes (m.read (vector + 1)) (m.read vector), cyc := s.cyc + 7 }

/-- P after a pulled status byte `v`: bits 7, 6, 3, 2, 1, 0 from it, bit 5 set, bit 4 kept. -/
def pulledStatus (s : State) (v : Byte) : Byte := (v &&& 0xCF) ||| 0x20 ||| (s.p &&& 0x10)

/-- Every address is a cell of its own, mapped and writable: the default bus of R7. -/
def flatRam (pf : Platform) : Prop := pf.unmapped = [] ∧ pf.readOnly = [] ∧ pf.mirrors = []

/-- The mnemonic of an instruction, from the decoder's entry of its opcode byte. -/
def mnemonic (i : Instr) : Kind := i.spec.kind

/-- The addressing of an instruction's operand in memory, from the mode of its entry and its operand bytes. -/
def operandAddressing (i : Instr) : Option Addressing :=
  match i.spec.mode, encode i with
  | .zeroPage, [_, nn] => some (.zeroPage nn)
  | .zeroPageX, [_, nn] => some (.zeroPageX nn)
  | .zeroPageY, [_, nn] => some (.zeroPageY nn)
  | .absolute, [_, ll, hh] => some (.absolute (joinBytes hh ll))
  | .absoluteX, [_, ll, hh] => some (.absoluteX (joinBytes hh ll))
  | .absoluteY, [_, ll, hh] => some (.absoluteY (joinBytes hh ll))
  | .indirectX, [_, nn] => some (.indirectX nn)
  | .indirectY, [_, nn] => some (.indirectY nn)
  | _, _ => none

/-- The operand of a read instruction: its second byte in mode Immediate, else the byte at its operand's address, which is
resolved in the state whose PC is past the instruction. -/
def operandByte (i : Instr) (s : State) : Option Byte :=
  match i.spec.mode, encode i with
  | .immediate, [_, nn] => some nn
  | _, _ => (operandAddressing i).map fun m => s.read (resolve m (s.setPc (s.pc + BitVec.ofNat 16 i.length))).ea

/-- The address a storing form writes: its operand's, to be resolved in the state whose PC is past the instruction. None
for the instructions that store to no operand and for the Accumulator forms. -/
def storeAddressing (i : Instr) : Option Addressing :=
  if [Kind.sta, .stx, .sty, .inc, .dec, .asl, .lsr, .rol, .ror].contains (mnemonic i) then operandAddressing i
  else none

/-- How many bytes an instruction pushes: PHA and PHP one, JSR two, BRK three. -/
def pushCount (i : Instr) : Nat :=
  if [Kind.pha, .php].contains (mnemonic i) then 1
  else if mnemonic i = .jsr then 2
  else if mnemonic i = .brk then 3
  else 0

/-- The mnemonics that write a flag, by its bit (the column "written by" of R31, reset apart): Z and N by the
instructions that set them, I by SEI, CLI, BRK, PLP, RTI, and so on. Nothing writes bit 4 or, but for the forcing of
PLP and RTI, bit 5. -/
def flagWriters : Nat → List Kind
  | 0 => [.adc, .sbc, .asl, .lsr, .rol, .ror, .cmp, .cpx, .cpy, .clc, .sec, .plp, .rti]
  | 1 => [.lda, .ldx, .ldy, .tax, .tay, .txa, .tya, .tsx, .pla, .adc, .sbc, .and, .ora, .eor, .asl, .lsr, .rol, .ror,
          .inc, .dec, .inx, .iny, .dex, .dey, .cmp, .cpx, .cpy, .bit, .plp, .rti]
  | 2 => [.sei, .cli, .brk, .plp, .rti]
  | 3 => [.sed, .cld, .plp, .rti]
  | 5 => [.plp, .rti]
  | 6 => [.adc, .sbc, .bit, .clv, .plp, .rti]
  | 7 => [.lda, .ldx, .ldy, .tax, .tay, .txa, .tya, .tsx, .pla, .adc, .sbc, .and, .ora, .eor, .asl, .lsr, .rol, .ror,
          .inc, .dec, .inx, .iny, .dex, .dey, .cmp, .cpx, .cpy, .bit, .plp, .rti]
  | _ => []

/-- The instructions that write A (R21). -/
def writesA (i : Instr) : Bool :=
  [Kind.lda, .pla, .txa, .tya, .adc, .sbc, .and, .ora, .eor].contains (mnemonic i) ||
  [Instr.aslAccumulator, .lsrAccumulator, .rolAccumulator, .rorAccumulator].contains i

/-- The instructions that write X (R22). -/
def writesX (i : Instr) : Bool := [Kind.ldx, .tax, .tsx, .inx, .dex].contains (mnemonic i)

/-- The instructions that write Y (R23). -/
def writesY (i : Instr) : Bool := [Kind.ldy, .tay, .iny, .dey].contains (mnemonic i)

/-- The instructions that write SP (R24): the pushes, the pulls and TXS. -/
def writesSp (i : Instr) : Bool :=
  [Kind.pha, .php, .jsr, .brk, .pla, .plp, .rts, .rti, .txs].contains (mnemonic i)

/-- The entry a recorded call adds. -/
def entryAdded (s : State) (c : HostCall) : List TraceEntry :=
  match c, s.recorder.recording, callStep s with
  | .step, true, .ok e _ => [e]
  | _, _, _ => []

end Sys2Proof.Claims

open Sys2Proof Sys2Proof.Machine Sys2Proof.Claims

/-! ### Encoding -/

/-- Decoding the bytes of a well-formed instruction, whatever follows them, gives the instruction and what follows. -/
def Obligations.DecodeOfEncodeIsIdentity : Prop :=
  ∀ (i : Instr) (rest : List Byte), i.WellFormed → decode (encode i ++ rest) = .instr i rest

/-- Every accepted list of bytes is the encoding of a well-formed instruction followed by the rest: no byte is dropped
and no two encodings share a meaning. -/
def Obligations.DecodedBytesAreTheEncoding : Prop :=
  ∀ (bs rest : List Byte) (i : Instr), decode bs = .instr i rest → i.WellFormed ∧ bs = encode i ++ rest

/-- R85, R88: the map has 151 rows with distinct opcode bytes, and a byte has no row exactly when it is one of the 105
listed, whose entry is the `Unimplemented` one. -/
def Obligations.EveryByteHasExactlyOneEntry : Prop :=
  opcodeMap.length = 151 ∧ (opcodeMap.map OpcodeRow.opcode).Pairwise (· ≠ ·) ∧
  undocumentedOpcodes.length = 105 ∧ undocumentedOpcodes.Pairwise (· ≠ ·) ∧
  ∀ op : Byte,
    ((∃ r ∈ opcodeMap, r.opcode = op) ∧ op ∉ undocumentedOpcodes ∧ (decodeSpec op).documented = true ∧
      ∃ r ∈ opcodeMap, r.opcode = op ∧ decodeSpec op = ⟨r.kind, r.mode, r.baseCycles, r.pageCross, true⟩) ∨
    ((∀ r ∈ opcodeMap, r.opcode ≠ op) ∧ op ∈ undocumentedOpcodes ∧
      decodeSpec op = ⟨.unimplemented, .implied, 0, false, false⟩)

/-- A word of each family, from the columns of R86 and the formats of R80 and R82. -/
def Obligations.WordsDecodeAsTheTableSays : Prop :=
  decode [0xBD, 0x34, 0x12] = .instr (.ldaAbsoluteX 0x1234) [] ∧
  decode [0x69, 0x10] = .instr (.adcImmediate 0x10) [] ∧
  decode [0x6A] = .instr .rorAccumulator [] ∧
  decode [0xCC, 0xFF, 0x00] = .instr (.cpyAbsolute 0x00FF) [] ∧
  decode [0xD0, 0xF7] = .instr (.bne 0xF7) [] ∧
  decode [0x6C, 0xFF, 0x02] = .instr (.jmpIndirect 0x02FF) [] ∧
  decode [0x00, 0xEA] = .instr .brk [0xEA] ∧
  decode [0x02] = .instr (.unimplemented 0x02) []

/-! ### The step -/

/-- R112: a session that is not halted checks its interrupts, and then, if the bytes at PC decode to `i`, the step is
`exec i` in the state the check has left. Two clauses are the model's, not R112's. The step itself appends the entry of
that state to the recorder, and only when recording is on: DESIGN CHOICE of log 2, since R112 returns the entry and R283
leaves recording to the caller. The stages are split so that the fetch gives an instruction and `exec` moves PC past its
bytes and charges its cycles: DEDUCED in log 4. -/
def Obligations.StepRunsTheDecodedInstruction : Prop :=
  ∀ (s : State) (i : Instr) (rest : List Byte), s.halted = none →
    decode [s.checkInterrupts.read s.checkInterrupts.pc, s.checkInterrupts.read (s.checkInterrupts.pc + 1),
      s.checkInterrupts.read (s.checkInterrupts.pc + 2)] = .instr i rest →
    step s =
      match exec i s.checkInterrupts with
      | .next t => .next (t.record s.checkInterrupts.entryAtPc)
      | .fault f => .fault f
      | .refused r => .refused r

/-- R111: every call of `step()` has one of two outcomes. It is `Ok` with an entry, and then the session was not halted
and the opcode byte at PC, after the interrupt check, is documented; or it is the fault of a byte `b`, and then `b`
halted the session earlier or is that opcode byte and undocumented. -/
def Obligations.StepHasOneOfTwoOutcomes : Prop :=
  ∀ s : State,
    (∃ e t, callStep s = .ok e t ∧ step s = .next t ∧ s.halted = none ∧
      s.checkInterrupts.read s.checkInterrupts.pc ∉ undocumentedOpcodes) ∨
    (∃ b t, callStep s = .fault (.unimplementedOpcode b) t ∧ step s = .fault (.unimplementedOpcode b) ∧
      (s.halted = some b ∨
        s.halted = none ∧ s.checkInterrupts.read s.checkInterrupts.pc = b ∧ b ∈ undocumentedOpcodes))

/-- R266: an undocumented opcode byte faults, and the call leaves the state of the interrupt check with only the halted
latch set. The instruction itself always faults. -/
def Obligations.UndocumentedByteFaultsAndLatches : Prop :=
  ∀ (s : State) (op : Byte), op ∈ undocumentedOpcodes →
    exec (.unimplemented op) s = .fault (.unimplementedOpcode op) ∧
    (s.halted = none → s.checkInterrupts.read s.checkInterrupts.pc = op →
      callStep s = .fault (.unimplementedOpcode op) { s.checkInterrupts with halted := some op } ∧
      step s = .fault (.unimplementedOpcode op))

/-- R127, R37: a halted session answers every step with its fault and does not change; requests set their flags, a reset
keeps the latch, and after any sequence of host calls the next step is the same fault. -/
def Obligations.HaltedSessionStaysHalted : Prop :=
  ∀ (s : State) (b : Byte), s.halted = some b →
    callStep s = .fault (.unimplementedOpcode b) s ∧
    s.requestNmi = { s with nmiPending := true } ∧ s.requestIrq = { s with irqPending := true } ∧
    s.resetCall.halted = some b ∧
    ∀ calls : List HostCall, (s.calls calls).halted = some b ∧ step (s.calls calls) = .fault (.unimplementedOpcode b)

/-- R312: no documented instruction raises anything, for any operand, register or memory value. -/
def Obligations.DocumentedInstructionsComplete : Prop :=
  ∀ (i : Instr) (s : State), (∀ op, i ≠ .unimplemented op) → ∃ t, exec i s = .next t

/-! ### Invariants -/

/-- The reset state meets the invariant. -/
def Obligations.ResetMeetsInvariant : Prop := State.reset.Inv

/-- Every session that creation gives meets the invariant, whatever its parameters and image. -/
def Obligations.CreatedSessionMeetsInvariant : Prop :=
  ∀ (c : SessionParameters) (s : State), createSession c = some s → s.Inv

/-- R28, R29, R280: every step keeps bit 5 of P at 1 and bit 4 at 0, the canonical form of the storage, and the recorded
entries legal. -/
def Obligations.StepKeepsInvariant : Prop :=
  ∀ s t : State, s.Inv → step s = .next t → t.Inv

/-- Every host call keeps the invariant too, a step that faults and a bus write of the harness among them. -/
def Obligations.HostCallsKeepInvariant : Prop :=
  ∀ (s : State) (calls : List HostCall), s.Inv → (s.calls calls).Inv

/-- R34: CYC never decreases, and every step that completes adds at least 2. -/
def Obligations.CycleCounterOnlyGrows : Prop :=
  (∀ (s : State) (c : HostCall), s.cyc ≤ (s.call c).cyc) ∧
  ∀ s t : State, step s = .next t → s.cyc + 2 ≤ t.cyc

/-! ### Interrupts -/

/-- R316, R317: the check of a step serves NMI if it is pending, else IRQ if it is pending and `P.I` is 0, else nothing.
A service pushes PC, high byte first, and P with bit 4 clear and bit 5 set, sets `P.I`, loads PC from the vector, low
byte first, and adds 7 cycles. -/
def Obligations.InterruptCheckServesAtMostOne : Prop :=
  ∀ s : State,
    (s.nmiPending = true → s.checkInterrupts = served { s with nmiPending := false } 0xFFFA) ∧
    (s.nmiPending = false → s.irqPending = true → flag s.p interruptBit = false →
      s.checkInterrupts = served { s with irqPending := false } 0xFFFE) ∧
    (s.nmiPending = false → (s.irqPending = false ∨ flag s.p interruptBit = true) → s.checkInterrupts = s)

/-- R319: the entry of a step that serves a request has the vector's content as PC, bit 2 of P set, SP three lower and CYC
seven higher. -/
def Obligations.ServiceShowsInTheEntry : Prop :=
  ∀ (s t : State) (e : TraceEntry), callStep s = .ok e t →
    (s.nmiPending = true ∨ (s.irqPending = true ∧ flag s.p interruptBit = false)) →
    let vector : Word := if s.nmiPending then 0xFFFA else 0xFFFE
    let m := pushedFrame s s.pc ((s.p &&& 0xEF) ||| 0x20)
    e.pc = joinBytes (m.read (vector + 1)) (m.read vector) ∧ flag e.p interruptBit = true ∧
    e.sp = s.sp - 3 ∧ e.cyc = s.cyc + 7

/-- R318: on flat RAM, RTI right after a service resumes at the interrupted address with the status and stack pointer
that were there. -/
def Obligations.RtiUndoesAService : Prop :=
  ∀ (s : State) (vector : Word), flatRam s.platform → Memory.wf s.mem = true → flag s.p unusedBit = true →
    ∃ t, exec .rti (s.service vector) = .next t ∧ t.pc = s.pc ∧ t.p = s.p ∧ t.sp = s.sp ∧
      t.a = s.a ∧ t.x = s.x ∧ t.y = s.y

/-- R36: an IRQ that is masked at a step's check, with no NMI pending, is still pending after the step. -/
def Obligations.MaskedIrqStaysPending : Prop :=
  ∀ s t : State, s.irqPending = true → s.nmiPending = false → flag s.p interruptBit = true → step s = .next t →
    t.irqPending = true

/-! ### Load, store, transfer -/

/-- R151. -/
def Obligations.LdaLoadsAndSetsZN : Prop :=
  eightReadForms (0xA9, .ldaImmediate) (0xA5, .ldaZeroPage) (0xB5, .ldaZeroPageX) (0xAD, .ldaAbsolute)
    (0xBD, .ldaAbsoluteX) (0xB9, .ldaAbsoluteY) (0xA1, .ldaIndirectX) (0xB1, .ldaIndirectY)
    fun s v => { s with a := v, p := withZN s.p v }

/-- R152, R153: the indexed forms of LDX use Y, those of LDY use X. -/
def Obligations.LdxAndLdyLoadAndSetZN : Prop :=
  ∀ (nn : Byte) (hhll : Word) (s : State),
    let afterX := fun v => { s with x := v, p := withZN s.p v }
    let afterY := fun v => { s with y := v, p := withZN s.p v }
    completesAs 0xA2 (.ldxImmediate nn) s 2 2 (afterX nn) ∧
    completesAs 0xA6 (.ldxZeroPage nn) s 2 3 (afterX (s.read (zeroExtend16 nn))) ∧
    completesAs 0xB6 (.ldxZeroPageY nn) s 2 4 (afterX (s.read (zeroExtend16 (nn + s.y)))) ∧
    completesAs 0xAE (.ldxAbsolute hhll) s 3 4 (afterX (s.read hhll)) ∧
    completesAs 0xBE (.ldxAbsoluteY hhll) s 3 (4 + crossing hhll s.y) (afterX (s.read (hhll + zeroExtend16 s.y))) ∧
    completesAs 0xA0 (.ldyImmediate nn) s 2 2 (afterY nn) ∧
    completesAs 0xA4 (.ldyZeroPage nn) s 2 3 (afterY (s.read (zeroExtend16 nn))) ∧
    completesAs 0xB4 (.ldyZeroPageX nn) s 2 4 (afterY (s.read (zeroExtend16 (nn + s.x)))) ∧
    completesAs 0xAC (.ldyAbsolute hhll) s 3 4 (afterY (s.read hhll)) ∧
    completesAs 0xBC (.ldyAbsoluteX hhll) s 3 (4 + crossing hhll s.x) (afterY (s.read (hhll + zeroExtend16 s.x)))

/-- R154, R155, R156: one bus write and nothing else; no flag; no page-cross cycle. -/
def Obligations.StoresWriteTheRegister : Prop :=
  ∀ (nn : Byte) (hhll : Word) (s : State),
    completesAs 0x85 (.staZeroPage nn) s 2 3 (s.write (zeroExtend16 nn) s.a) ∧
    completesAs 0x95 (.staZeroPageX nn) s 2 4 (s.write (zeroExtend16 (nn + s.x)) s.a) ∧
    completesAs 0x8D (.staAbsolute hhll) s 3 4 (s.write hhll s.a) ∧
    completesAs 0x9D (.staAbsoluteX hhll) s 3 5 (s.write (hhll + zeroExtend16 s.x) s.a) ∧
    completesAs 0x99 (.staAbsoluteY hhll) s 3 5 (s.write (hhll + zeroExtend16 s.y) s.a) ∧
    completesAs 0x81 (.staIndirectX nn) s 2 6 (s.write (pointerAt s (nn + s.x)) s.a) ∧
    completesAs 0x91 (.staIndirectY nn) s 2 6 (s.write (pointerAt s nn + zeroExtend16 s.y) s.a) ∧
    completesAs 0x86 (.stxZeroPage nn) s 2 3 (s.write (zeroExtend16 nn) s.x) ∧
    completesAs 0x96 (.stxZeroPageY nn) s 2 4 (s.write (zeroExtend16 (nn + s.y)) s.x) ∧
    completesAs 0x8E (.stxAbsolute hhll) s 3 4 (s.write hhll s.x) ∧
    completesAs 0x84 (.styZeroPage nn) s 2 3 (s.write (zeroExtend16 nn) s.y) ∧
    completesAs 0x94 (.styZeroPageX nn) s 2 4 (s.write (zeroExtend16 (nn + s.x)) s.y) ∧
    completesAs 0x8C (.styAbsolute hhll) s 3 4 (s.write hhll s.y)

/-- R157 to R162. -/
def Obligations.TransfersMoveAByte : Prop :=
  ∀ s : State,
    completesAs 0xAA .tax s 1 2 { s with x := s.a, p := withZN s.p s.a } ∧
    completesAs 0xA8 .tay s 1 2 { s with y := s.a, p := withZN s.p s.a } ∧
    completesAs 0x8A .txa s 1 2 { s with a := s.x, p := withZN s.p s.x } ∧
    completesAs 0x98 .tya s 1 2 { s with a := s.y, p := withZN s.p s.y } ∧
    completesAs 0xBA .tsx s 1 2 { s with x := s.sp, p := withZN s.p s.sp } ∧
    completesAs 0x9A .txs s 1 2 { s with sp := s.x }

/-! ### Arithmetic -/

/-- R171. The Decimal flag plays no part. -/
def Obligations.AdcAddsWithCarry : Prop :=
  eightReadForms (0x69, .adcImmediate) (0x65, .adcZeroPage) (0x75, .adcZeroPageX) (0x6D, .adcAbsolute)
    (0x7D, .adcAbsoluteX) (0x79, .adcAbsoluteY) (0x61, .adcIndirectX) (0x71, .adcIndirectY) added

/-- R172: `Add` of the operand's ones' complement. That is the difference less the borrow in, Carry set when there is no
borrow, Overflow when the signed difference is outside -128 to 127. -/
def Obligations.SbcSubtractsWithBorrow : Prop :=
  eightReadForms (0xE9, .sbcImmediate) (0xE5, .sbcZeroPage) (0xF5, .sbcZeroPageX) (0xED, .sbcAbsolute)
    (0xFD, .sbcAbsoluteX) (0xF9, .sbcAbsoluteY) (0xE1, .sbcIndirectX) (0xF1, .sbcIndirectY)
    (fun s m => added s (m ^^^ 0xFF)) ∧
  ∀ (s : State) (m : Byte),
    let t := added s (m ^^^ 0xFF)
    let borrowIn : Nat := if flag s.p carryBit then 0 else 1
    t.a = s.a - m - BitVec.ofNat 8 borrowIn ∧
    (flag t.p carryBit = true ↔ m.toNat + borrowIn ≤ s.a.toNat) ∧
    (flag t.p overflowBit = true ↔
      s.a.toInt - m.toInt - (borrowIn : Int) < -128 ∨ 127 < s.a.toInt - m.toInt - (borrowIn : Int))

/-- R179 for ADC: every form completes, and leaves the sum modulo 256 in A, the carry out in C and, in V, whether the
signed sum is outside -128 to 127, whatever P.D holds (R170). -/
def Obligations.AdditionCarryAndSignedOverflow : Prop :=
  ∀ (i : Instr) (s : State), i.WellFormed → mnemonic i = .adc →
    ∃ (m : Byte) (t : State), operandByte i s = some m ∧ exec i s = .next t ∧
      let c : Nat := carryIn s
      t.a.toNat = (s.a.toNat + m.toNat + c) % 256 ∧
      (flag t.p carryBit = true ↔ 256 ≤ s.a.toNat + m.toNat + c) ∧
      (flag t.p overflowBit = true ↔
        s.a.toInt + m.toInt + (c : Int) < -128 ∨ 127 < s.a.toInt + m.toInt + (c : Int))

/-- R173, R174: memory plus or minus one, Z and N from the result; C and V keep. -/
def Obligations.IncDecModifyMemory : Prop :=
  fourModifyForms (0xE6, .incZeroPage) (0xF6, .incZeroPageX) (0xEE, .incAbsolute) (0xFE, .incAbsoluteX)
    (fun _ v => v + 1)
    (fun s v => withZN s.p (v + 1)) ∧
  fourModifyForms (0xC6, .decZeroPage) (0xD6, .decZeroPageX) (0xCE, .decAbsolute) (0xDE, .decAbsoluteX)
    (fun _ v => v - 1)
    (fun s v => withZN s.p (v - 1))

/-- R175 to R178. -/
def Obligations.IndexRegistersCount : Prop :=
  ∀ s : State,
    completesAs 0xE8 .inx s 1 2 { s with x := s.x + 1, p := withZN s.p (s.x + 1) } ∧
    completesAs 0xC8 .iny s 1 2 { s with y := s.y + 1, p := withZN s.p (s.y + 1) } ∧
    completesAs 0xCA .dex s 1 2 { s with x := s.x - 1, p := withZN s.p (s.x - 1) } ∧
    completesAs 0x88 .dey s 1 2 { s with y := s.y - 1, p := withZN s.p (s.y - 1) }

/-! ### Flags -/

/-- Writing one flag writes that bit of the status word and no other; `SetZN` of R13 writes Z and N and no other. -/
def Obligations.FlagWritesTouchTheirBitsAlone : Prop :=
  (∀ (p : Byte) (n k : Nat) (b : Bool), n < 8 → k < 8 →
    flag (withFlag p n b) k = if k = n then b else flag p k) ∧
  ∀ (p v : Byte) (n : Nat), n < 8 →
    flag (withZN p v) n =
      if n = zeroBit then decide (v = 0) else if n = negativeBit then v.getLsbD 7 else flag p n

/-- R258 to R265: NOP and the seven flag instructions. -/
def Obligations.NopAndFlagInstructions : Prop :=
  ∀ s : State,
    completesAs 0xEA .nop s 1 2 s ∧
    completesAs 0x18 .clc s 1 2 { s with p := withFlag s.p 0 false } ∧
    completesAs 0x38 .sec s 1 2 { s with p := withFlag s.p 0 true } ∧
    completesAs 0x58 .cli s 1 2 { s with p := withFlag s.p 2 false } ∧
    completesAs 0x78 .sei s 1 2 { s with p := withFlag s.p 2 true } ∧
    completesAs 0xB8 .clv s 1 2 { s with p := withFlag s.p 6 false } ∧
    completesAs 0xD8 .cld s 1 2 { s with p := withFlag s.p 3 false } ∧
    completesAs 0xF8 .sed s 1 2 { s with p := withFlag s.p 3 true }

/-! ### Logical, shift, compare -/

/-- R190 to R193. -/
def Obligations.LogicalInstructionsCombineA : Prop :=
  eightReadForms (0x29, .andImmediate) (0x25, .andZeroPage) (0x35, .andZeroPageX) (0x2D, .andAbsolute)
    (0x3D, .andAbsoluteX) (0x39, .andAbsoluteY) (0x21, .andIndirectX) (0x31, .andIndirectY)
    (fun s m => { s with a := s.a &&& m, p := withZN s.p (s.a &&& m) }) ∧
  eightReadForms (0x09, .oraImmediate) (0x05, .oraZeroPage) (0x15, .oraZeroPageX) (0x0D, .oraAbsolute)
    (0x1D, .oraAbsoluteX) (0x19, .oraAbsoluteY) (0x01, .oraIndirectX) (0x11, .oraIndirectY)
    (fun s m => { s with a := s.a ||| m, p := withZN s.p (s.a ||| m) }) ∧
  eightReadForms (0x49, .eorImmediate) (0x45, .eorZeroPage) (0x55, .eorZeroPageX) (0x4D, .eorAbsolute)
    (0x5D, .eorAbsoluteX) (0x59, .eorAbsoluteY) (0x41, .eorIndirectX) (0x51, .eorIndirectY)
    (fun s m => { s with a := s.a ^^^ m, p := withZN s.p (s.a ^^^ m) })

/-- R194: Z from the AND, N and V from bits 7 and 6 of the operand; A keeps. -/
def Obligations.BitTestsTheOperand : Prop :=
  ∀ (nn : Byte) (hhll : Word) (s : State),
    let after := fun (m : Byte) =>
      { s with p := withFlag (withFlag (withFlag s.p 1 (decide (s.a &&& m = 0))) 7 (m.getLsbD 7)) 6 (m.getLsbD 6) }
    completesAs 0x24 (.bitZeroPage nn) s 2 3 (after (s.read (zeroExtend16 nn))) ∧
    completesAs 0x2C (.bitAbsolute hhll) s 3 4 (after (s.read hhll))

/-- R195, R196, R197: the shifts in all five forms. -/
def Obligations.ShiftsMoveOneBit : Prop :=
  let left : Byte → Byte := fun v => BitVec.ofNat 8 (v.toNat * 2 % 256)
  let right : Byte → Byte := fun v => BitVec.ofNat 8 (v.toNat / 2)
  accumulatorForm 0x0A .aslAccumulator (fun _ v => left v) (fun s v => shiftStatus s (v.getLsbD 7) (left v)) ∧
  fourModifyForms (0x06, .aslZeroPage) (0x16, .aslZeroPageX) (0x0E, .aslAbsolute) (0x1E, .aslAbsoluteX)
    (fun _ v => left v)
    (fun s v => shiftStatus s (v.getLsbD 7) (left v)) ∧
  accumulatorForm 0x4A .lsrAccumulator (fun _ v => right v) (fun s v => shiftStatus s (v.getLsbD 0) (right v)) ∧
  fourModifyForms (0x46, .lsrZeroPage) (0x56, .lsrZeroPageX) (0x4E, .lsrAbsolute) (0x5E, .lsrAbsoluteX)
    (fun _ v => right v)
    (fun s v => shiftStatus s (v.getLsbD 0) (right v))

/-- R198, R199: the rotates through Carry in all five forms. -/
def Obligations.RotatesGoThroughCarry : Prop :=
  let left : State → Byte → Byte := fun s v => BitVec.ofNat 8 (v.toNat * 2 % 256 + carryIn s)
  let right : State → Byte → Byte := fun s v => BitVec.ofNat 8 (v.toNat / 2 + 128 * carryIn s)
  accumulatorForm 0x2A .rolAccumulator left (fun s v => shiftStatus s (v.getLsbD 7) (left s v)) ∧
  fourModifyForms (0x26, .rolZeroPage) (0x36, .rolZeroPageX) (0x2E, .rolAbsolute) (0x3E, .rolAbsoluteX)
    left
    (fun s v => shiftStatus s (v.getLsbD 7) (left s v)) ∧
  accumulatorForm 0x6A .rorAccumulator right (fun s v => shiftStatus s (v.getLsbD 0) (right s v)) ∧
  fourModifyForms (0x66, .rorZeroPage) (0x76, .rorZeroPageX) (0x6E, .rorAbsolute) (0x7E, .rorAbsoluteX)
    right
    (fun s v => shiftStatus s (v.getLsbD 0) (right s v))

/-- R210 to R213. -/
def Obligations.ComparesSetFlagsOnly : Prop :=
  eightReadForms (0xC9, .cmpImmediate) (0xC5, .cmpZeroPage) (0xD5, .cmpZeroPageX) (0xCD, .cmpAbsolute)
    (0xDD, .cmpAbsoluteX) (0xD9, .cmpAbsoluteY) (0xC1, .cmpIndirectX) (0xD1, .cmpIndirectY)
    (fun s m => compared s s.a m) ∧
  ∀ (nn : Byte) (hhll : Word) (s : State),
    completesAs 0xE0 (.cpxImmediate nn) s 2 2 (compared s s.x nn) ∧
    completesAs 0xE4 (.cpxZeroPage nn) s 2 3 (compared s s.x (s.read (zeroExtend16 nn))) ∧
    completesAs 0xEC (.cpxAbsolute hhll) s 3 4 (compared s s.x (s.read hhll)) ∧
    completesAs 0xC0 (.cpyImmediate nn) s 2 2 (compared s s.y nn) ∧
    completesAs 0xC4 (.cpyZeroPage nn) s 2 3 (compared s s.y (s.read (zeroExtend16 nn))) ∧
    completesAs 0xCC (.cpyAbsolute hhll) s 3 4 (compared s s.y (s.read hhll))

/-! ### Branches, jumps, calls, stack -/

/-- R220 to R229: the page test compares the target with the branch's own address. -/
def Obligations.BranchesTakeOrPass : Prop :=
  branchForm (0x10, .bpl) (fun s => !flag s.p 7) ∧ branchForm (0x30, .bmi) (fun s => flag s.p 7) ∧
  branchForm (0x50, .bvc) (fun s => !flag s.p 6) ∧ branchForm (0x70, .bvs) (fun s => flag s.p 6) ∧
  branchForm (0x90, .bcc) (fun s => !flag s.p 0) ∧ branchForm (0xB0, .bcs) (fun s => flag s.p 0) ∧
  branchForm (0xD0, .bne) (fun s => !flag s.p 1) ∧ branchForm (0xF0, .beq) (fun s => flag s.p 1)

/-- R236, R237: the indirect pointer's high byte comes from the page of the pointer. -/
def Obligations.JumpsReachTheirTarget : Prop :=
  ∀ (hhll : Word) (s : State),
    jumpsTo 0x4C (.jmpAbsolute hhll) s hhll 3 s ∧
    jumpsTo 0x6C (.jmpIndirect hhll) s
      (joinBytes (s.read (joinBytes (hiByte hhll) (loByte hhll + 1))) (s.read hhll)) 5 s

/-- R238, R239: JSR pushes its own address plus two, high byte first; RTS pulls low byte, then high byte, and adds one. -/
def Obligations.CallPushesAndReturnPulls : Prop :=
  ∀ (hhll : Word) (s : State),
    jumpsTo 0x20 (.jsr hhll) s hhll 6
      { (s.write (stackBelow s 0) (hiByte (s.pc + 2))).write (stackBelow s 1) (loByte (s.pc + 2)) with sp := s.sp - 2 } ∧
    jumpsTo 0x60 .rts s (joinBytes (s.read (stackAbove s 2)) (s.read (stackAbove s 1)) + 1) 6 { s with sp := s.sp + 2 }

/-- R242 to R245: the four stack instructions. -/
def Obligations.StackInstructionsMoveAByte : Prop :=
  ∀ s : State,
    completesAs 0x48 .pha s 1 3 { s.write (stackBelow s 0) s.a with sp := s.sp - 1 } ∧
    completesAs 0x68 .pla s 1 4
      { s with sp := s.sp + 1, a := s.read (stackAbove s 1), p := withZN s.p (s.read (stackAbove s 1)) } ∧
    completesAs 0x08 .php s 1 3 { s.write (stackBelow s 0) (s.p ||| 0x30) with sp := s.sp - 1 } ∧
    completesAs 0x28 .plp s 1 4 { s with sp := s.sp + 1, p := pulledStatus s (s.read (stackAbove s 1)) }

/-- R240, R242 to R245: on flat RAM each pull undoes the push before it. RTS after JSR returns to the instruction after
the JSR, PLA after PHA gives back A, PLP after PHP gives back P (bit 5 of P being 1), and SP is as it was. -/
def Obligations.PullsUndoPushes : Prop :=
  ∀ (hhll : Word) (s : State), flatRam s.platform → Memory.wf s.mem = true → flag s.p unusedBit = true →
    (∃ t u, exec (.jsr hhll) s = .next t ∧ exec .rts t = .next u ∧ u.pc = s.pc + 3 ∧ u.sp = s.sp) ∧
    (∃ t u, exec .pha s = .next t ∧ exec .pla t = .next u ∧ u.a = s.a ∧ u.sp = s.sp) ∧
    (∃ t u, exec .php s = .next t ∧ exec .plp t = .next u ∧ u.p = s.p ∧ u.sp = s.sp)

/-! ### BRK and RTI -/

/-- R256: the frame of BRK, its return address, the vector, the cycles. -/
def Obligations.BrkEntersTheHandler : Prop :=
  ∀ s : State,
    let m := pushedFrame s (s.pc + 2) (s.p ||| 0x30)
    jumpsTo 0x00 .brk s (joinBytes (m.read 0xFFFF) (m.read 0xFFFE)) 7
      { m with sp := s.sp - 3, p := withFlag s.p interruptBit true }

/-- R257. -/
def Obligations.RtiPullsStatusThenPc : Prop :=
  ∀ s : State,
    jumpsTo 0x40 .rti s (joinBytes (s.read (stackAbove s 3)) (s.read (stackAbove s 2))) 6
      { s with sp := s.sp + 3, p := pulledStatus s (s.read (stackAbove s 1)) }

/-! ### Frames -/

/-- R116: whatever an instruction does, the pending flags, the latch, the parameters and the recorder are not its to
write. -/
def Obligations.ExecuteLeavesSessionStateAlone : Prop :=
  ∀ (i : Instr) (s t : State), exec i s = .next t →
    t.nmiPending = s.nmiPending ∧ t.irqPending = s.irqPending ∧ t.halted = s.halted ∧ t.platform = s.platform ∧
    t.recorder = s.recorder

/-- R21 to R24: A, X, Y and SP change only under the instructions the rules name. -/
def Obligations.OnlyNamedInstructionsWriteRegisters : Prop :=
  ∀ (i : Instr) (s t : State), exec i s = .next t →
    (writesA i = false → t.a = s.a) ∧ (writesX i = false → t.x = s.x) ∧ (writesY i = false → t.y = s.y) ∧
    (writesSp i = false → t.sp = s.sp)

/-- R31: a flag changes only under the instructions its row names. -/
def Obligations.OnlyNamedInstructionsWriteFlags : Prop :=
  ∀ (i : Instr) (s t : State) (n : Nat), n < 8 → exec i s = .next t → mnemonic i ∉ flagWriters n →
    flag t.p n = flag s.p n

/-- An instruction that neither stores to an operand nor pushes leaves every byte of memory as it was. -/
def Obligations.OtherInstructionsLeaveMemory : Prop :=
  ∀ (i : Instr) (s t : State), exec i s = .next t → storeAddressing i = none → pushCount i = 0 →
    t.mem = s.mem ∧ ∀ a : Word, t.read a = s.read a

/-- A storing form (STA, STX, STY, and the memory forms of INC, DEC, ASL, LSR, ROL, ROR) changes only the cell its
operand's address names: every address of another cell reads as before. -/
def Obligations.StoresChangeOneCell : Prop :=
  ∀ (i : Instr) (s t : State) (m : Addressing), exec i s = .next t → storeAddressing i = some m →
    ∀ a : Word,
      canon s.platform a ≠ canon s.platform (resolve m (s.setPc (s.pc + BitVec.ofNat 16 i.length))).ea →
      t.read a = s.read a

/-- PHA, PHP, JSR and BRK change only the one, one, two or three stack cells from SP downward. -/
def Obligations.PushesChangeStackCells : Prop :=
  ∀ (i : Instr) (s t : State), exec i s = .next t → 0 < pushCount i →
    ∀ a : Word,
      (∀ k, k < pushCount i → canon s.platform a ≠ canon s.platform (stackBelow s (BitVec.ofNat 8 k))) →
      t.read a = s.read a

/-! ### Memory and addressing -/

/-- R52, R53, R70: a read after a write gives the written byte where the write landed in the cell read, the old byte
elsewhere, and `BUS_FALLBACK` where nothing is mapped. -/
def Obligations.BusReadAfterWrite : Prop :=
  ∀ (s : State) (a b : Word) (v : Byte), Memory.wf s.mem = true →
    (s.write a v).read b =
      if mapped s.platform b = false then s.platform.fallback
      else if mapped s.platform a = true ∧ writable s.platform (canon s.platform a) = true ∧
          canon s.platform b = canon s.platform a then v
      else s.read b

/-- R144: what `Resolve` answers in AbsoluteX, AbsoluteY and IndirectY, whose crossing is a carry out of the low byte of
the base; no other mode reports a crossing. -/
def Obligations.PageCrossingIsACarry : Prop :=
  ∀ s : State,
    (∀ hhll, resolvesIndexed (resolve (.absoluteX hhll) s) hhll s.x) ∧
    (∀ hhll, resolvesIndexed (resolve (.absoluteY hhll) s) hhll s.y) ∧
    (∀ nn, resolvesIndexed (resolve (.indirectY nn) s) (pointerAt s nn) s.y) ∧
    ∀ m : Addressing, (resolve m s).crossed = true →
      (∃ hhll, m = .absoluteX hhll) ∨ (∃ hhll, m = .absoluteY hhll) ∨ ∃ nn, m = .indirectY nn

/-! ### Reset and session creation -/

/-- R340, R40: what `reset()` writes; memory, the latch, the parameters and the recorder keep. -/
def Obligations.ResetCallReinitialises : Prop :=
  ∀ s : State, s.resetCall =
    { s with a := 0, x := 0, y := 0, sp := 0xFD, p := 0x24, nmiPending := false, irqPending := false,
             pc := joinBytes (s.read 0xFFFD) (s.read 0xFFFC), cyc := s.cyc + s.platform.resetCycles }

/-- The reset state is the session that the default parameters create, its storage empty and its recording off (log 2, log
5, log 7: how the model holds them). -/
def Obligations.ResetStateIsTheDefaultSession : Prop :=
  createSession {} = some State.reset

/-- R341: what a created session holds: the storage of `INIT_MEM` with the image loaded over it, the registers and flags,
PC from the reset vector of that storage, the cycle count. -/
def Obligations.PowerOnState : Prop :=
  ∀ (c : SessionParameters) (s : State), createSession c = some s →
    s.mem = loadImage c.platform (storeCells [] c.initMem) c.loadAddress c.image ∧
    s.a = 0 ∧ s.x = 0 ∧ s.y = 0 ∧ s.sp = 0xFD ∧ s.p = 0x24 ∧
    s.pc = joinBytes (s.read 0xFFFD) (s.read 0xFFFC) ∧ s.cyc = c.platform.resetCycles ∧
    s.nmiPending = false ∧ s.irqPending = false ∧ s.halted = none ∧ s.platform = c.platform

/-- R66: an image that does not fit is refused. In a session that is created each byte of the image is in the cell its
address names, unless a later byte names the same cell, and a cell that no byte names holds what `INIT_MEM` gave it, as
`storeCells` lays it out. R66 names the one refusal; that nothing else is refused ('exactly when') and that a byte is
stored also where its address is not mapped is DEDUCED in log 10. -/
def Obligations.ImageIsLoaded : Prop :=
  ∀ c : SessionParameters,
    let cell := fun n : Nat => canon c.platform (c.loadAddress + BitVec.ofNat 16 n)
    (createSession c = none ↔ 65536 < c.loadAddress.toNat + c.image.length) ∧
    ∀ s : State, createSession c = some s →
      (∀ n v, c.image[n]? = some v → (∀ k, n < k → k < c.image.length → cell k ≠ cell n) →
        Memory.get s.mem (cell n).toNat = v) ∧
      ∀ k, (∀ n, n < c.image.length → (cell n).toNat ≠ k) →
        Memory.get s.mem k = Memory.get (storeCells [] c.initMem) k

/-! ### Trace and verifier -/

/-- R281: the entry of a step is the state after the interrupt check, and its bytes are those of the instruction that
runs. -/
def Obligations.EntryIsThePreExecutionState : Prop :=
  ∀ (s t : State) (e : TraceEntry), callStep s = .ok e t →
    let u := s.checkInterrupts
    e.pc = u.pc ∧ e.bytes = encode u.fetch ∧
    e.bytes = (List.range u.fetch.length).map (fun n => u.read (u.pc + BitVec.ofNat 16 n)) ∧
    e.a = u.a ∧ e.x = u.x ∧ e.y = u.y ∧ e.p = u.p ∧ e.sp = u.sp ∧ e.cyc = u.cyc

/-- R282, R283: the recorder grows by the entry of each step that completes while recording is on, at its end, and by
nothing else. -/
def Obligations.RecorderAppendsOneEntryPerStep : Prop :=
  ∀ (s : State) (c : HostCall), (s.call c).recorder.entries = s.recorder.entries ++ entryAdded s c

/-- R283: recording does not change the core's behaviour. Two sessions that differ in the recorder alone answer the same
calls with states that differ in the recorder alone, and their next steps have the same outcome up to the recorder. -/
def Obligations.RecordingDoesNotChangeTheCore : Prop :=
  ∀ (s : State) (r r0 : Recorder) (calls : List HostCall),
    ((s.setRecorder r).calls calls).setRecorder r0 = (s.calls calls).setRecorder r0 ∧
    match step (s.calls calls), step ((s.setRecorder r).calls calls) with
    | .next t, .next t' => t.setRecorder r0 = t'.setRecorder r0
    | .fault f, .fault f' => f = f'
    | .refused w, .refused w' => w = w'
    | _, _ => False

/-- R288: a log of formatted entries, a line feed after each, parses to those entries. -/
def Obligations.ParsingUndoesFormatting : Prop :=
  ∀ es : List TraceEntry, (∀ e ∈ es, 1 ≤ e.bytes.length ∧ e.bytes.length ≤ 3) →
    parseLog (es.flatMap fun e => formatEntry e ++ ['\n']) = .entries es

/-- R287: a parse error names, counting from 1, the first line that is malformed, and the reason of that line. -/
def Obligations.ParseErrorNamesTheFirstBadLine : Prop :=
  ∀ (text : List Char) (line : Nat) (reason : ParseReason),
    parseLog text = .malformedReferenceLog line reason ↔
      ∃ bad, 1 ≤ line ∧ (linesOf text)[line - 1]? = some bad ∧ parseLine bad = .malformed reason ∧
        ∀ k, k < line - 1 → ∃ good e, (linesOf text)[k]? = some good ∧ parseLine good = .entry e

/-- R291: `compare` answers Match exactly when the two sequences, cut at the cap, are equal. -/
def Obligations.MatchMeansEqualUpToTheCap : Prop :=
  ∀ (cap : Option Nat) (produced reference : List TraceEntry),
    compareTraces cap produced reference = .matched ↔ capped cap produced = capped cap reference

/-- R294: one changed field of one reference entry below the cap is reported at its index with its values. -/
def Obligations.FirstInjectedMismatchIsReported : Prop :=
  ∀ (cap : Option Nat) (trace log log' : List TraceEntry) (i : Nat) (e e' : TraceEntry) (f : TraceField),
    compareTraces cap trace log = .matched → log[i]? = some e → log' = log.set i e' →
    (∀ n, cap = some n → i < n) → e'.field f ≠ e.field f → (∀ g, g ≠ f → e'.field g = e.field g) →
    compareTraces cap trace log' =
      .traceMismatch i (.entry f) (e'.field f) (e.field f) (some e.pc)
end

