-- ==== Sys2Proof/Laws/Memory.lean ====
section
/-! SUPPORT. The storage: what a cell reads as after a write, and the canonical form (20_memory.md R51, R70). -/

namespace Sys2Proof.Machine

theorem Memory.wfFrom_cons {lo : Nat} {c : Host.Cell} {rest : Memory} :
    Memory.wfFrom lo (c :: rest) = true ↔
      lo ≤ c.1 ∧ c.1 < 65536 ∧ c.2 ≠ blankByte ∧ Memory.wfFrom (c.1 + 1) rest = true := by
  simp [Memory.wfFrom, and_assoc]

/-- A lower bound may be lowered. -/
theorem Memory.wfFrom_mono {lo lo' : Nat} (h : lo' ≤ lo) :
    ∀ {m : Memory}, Memory.wfFrom lo m = true → Memory.wfFrom lo' m = true
  | [], _ => rfl
  | c :: rest, hm => by
    rw [Memory.wfFrom_cons] at hm ⊢
    exact ⟨Nat.le_trans h hm.1, hm.2⟩

/-- Below the lower bound every cell is blank. -/
theorem Memory.get_below {k : Nat} : ∀ {lo : Nat} {m : Memory}, Memory.wfFrom lo m = true → k < lo →
    Memory.get m k = blankByte
  | _, [], _, _ => rfl
  | lo, c :: rest, hm, hk => by
    rw [Memory.wfFrom_cons] at hm
    have hne : k ≠ c.1 := by omega
    simpa [Memory.get, hne] using Memory.get_below hm.2.2.2 (show k < c.1 + 1 by omega)

/-- A write leaves every other cell as it was. -/
theorem Memory.get_set_other {k k' : Nat} (m : Memory) (h : k' ≠ k) (v : Byte) :
    Memory.get (Memory.set m k v) k' = Memory.get m k' := by
  induction m with
  | nil => unfold Memory.set; split <;> simp [Memory.get, h]
  | cons c rest ih =>
    unfold Memory.set
    split
    · simp [Memory.get, ih]
    · split
      · rename_i hk
        split <;> simp [Memory.get, hk, h]
      · split <;> simp [Memory.get, h]

theorem Memory.get_set_same_from {k : Nat} (v : Byte) : ∀ {lo : Nat} {m : Memory}, Memory.wfFrom lo m = true →
    Memory.get (Memory.set m k v) k = v
  | _, [], _ => by
    unfold Memory.set
    split
    · rename_i hv; simp [Memory.get, hv]
    · simp [Memory.get]
  | lo, c :: rest, hm => by
    rw [Memory.wfFrom_cons] at hm
    have hrest := hm.2.2.2
    unfold Memory.set
    split
    · have hne : k ≠ c.1 := by omega
      simpa [Memory.get, hne] using Memory.get_set_same_from v hrest
    · split
      · rename_i hk
        split
        · rename_i hv
          rw [hv]; exact Memory.get_below hrest (by omega)
        · simp [Memory.get]
      · split
        · rename_i hlt hk hv
          have hne : k ≠ c.1 := fun e => hk e.symm
          simp only [Memory.get, hne, if_false, hv]
          exact Memory.get_below hrest (by omega)
        · simp [Memory.get]

/-- A cell holds what was last written to it. -/
theorem Memory.get_set_same {m : Memory} (h : Memory.wf m = true) (k : Nat) (v : Byte) :
    Memory.get (Memory.set m k v) k = v :=
  Memory.get_set_same_from v h

theorem Memory.wfFrom_set {k : Nat} (v : Byte) (hk : k < 65536) : ∀ {lo : Nat} {m : Memory}, lo ≤ k →
    Memory.wfFrom lo m = true → Memory.wfFrom lo (Memory.set m k v) = true
  | lo, [], hlo, _ => by
    unfold Memory.set
    split
    · rfl
    · rename_i hv
      rw [Memory.wfFrom_cons]; exact ⟨hlo, hk, hv, rfl⟩
  | lo, c :: rest, hlo, hm => by
    have hm' := Memory.wfFrom_cons.mp hm
    unfold Memory.set
    split
    · rw [Memory.wfFrom_cons]
      exact ⟨hm'.1, hm'.2.1, hm'.2.2.1, Memory.wfFrom_set v hk (by omega) hm'.2.2.2⟩
    · split
      · rename_i hck
        split
        · exact Memory.wfFrom_mono (by omega) hm'.2.2.2
        · rename_i hv
          rw [Memory.wfFrom_cons]; exact ⟨hlo, hk, hv, hck ▸ hm'.2.2.2⟩
      · split
        · exact hm
        · rename_i hlt hck hv
          rw [Memory.wfFrom_cons]
          refine ⟨hlo, hk, hv, ?_⟩
          rw [Memory.wfFrom_cons]
          exact ⟨by show k + 1 ≤ c.1; omega, hm'.2⟩

/-- A write keeps the canonical form. -/
theorem Memory.wf_set {m : Memory} (h : Memory.wf m = true) (k : Nat) (v : Byte) (hk : k < 65536) :
    Memory.wf (Memory.set m k v) = true :=
  Memory.wfFrom_set v hk (Nat.zero_le k) h

theorem Memory.ext_from : ∀ {lo : Nat} {m m' : Memory}, Memory.wfFrom lo m = true → Memory.wfFrom lo m' = true →
    (∀ k, Memory.get m k = Memory.get m' k) → m = m'
  | _, [], [], _, _, _ => rfl
  | _, [], c :: rest, _, h', e => by
    have h' := Memory.wfFrom_cons.mp h'
    have := e c.1
    simp [Memory.get] at this
    exact absurd this.symm h'.2.2.1
  | _, c :: rest, [], h, _, e => by
    have h := Memory.wfFrom_cons.mp h
    have := e c.1
    simp [Memory.get] at this
    exact absurd this h.2.2.1
  | lo, c :: rest, c' :: rest', h, h', e => by
    have h := Memory.wfFrom_cons.mp h
    have h' := Memory.wfFrom_cons.mp h'
    have hkey : c.1 = c'.1 := by
      rcases Nat.lt_trichotomy c.1 c'.1 with hlt | heq | hgt
      · have := e c.1
        have hb : Memory.get rest' c.1 = blankByte := Memory.get_below h'.2.2.2 (by omega)
        have hne : c.1 ≠ c'.1 := by omega
        simp [Memory.get, hne, hb] at this
        exact absurd this h.2.2.1
      · exact heq
      · have := e c'.1
        have hb : Memory.get rest c'.1 = blankByte := Memory.get_below h.2.2.2 (by omega)
        have hne : c'.1 ≠ c.1 := by omega
        simp [Memory.get, hne, hb] at this
        exact absurd this.symm h'.2.2.1
    have hval : c.2 = c'.2 := by
      have := e c.1
      simpa [Memory.get, hkey] using this
    have hrest : rest = rest' := by
      refine Memory.ext_from h.2.2.2 (by rw [hkey]; exact h'.2.2.2) fun k => ?_
      by_cases hk : k = c.1
      · rw [hk, Memory.get_below h.2.2.2 (by omega), Memory.get_below h'.2.2.2 (by omega)]
      · have := e k
        have hk' : k ≠ c'.1 := by rw [← hkey]; exact hk
        simpa [Memory.get, hk, hk'] using this
    rw [show c = c' from Prod.ext hkey hval, hrest]

/-- Two storages in canonical form that read alike are the same data. -/
theorem Memory.ext_of_get {m m' : Memory} (h : Memory.wf m = true) (h' : Memory.wf m' = true)
    (e : ∀ k, Memory.get m k = Memory.get m' k) : m = m' :=
  Memory.ext_from h h' e

end Sys2Proof.Machine
end

