-- ==== Sys2Proof/Laws/State.lean ====
section
/-! SUPPORT. Every field after every register write (10_state.md R20): the written one, and the others unchanged. -/

namespace Sys2Proof.Machine

@[simp] theorem State.setA_a (s : State) (v : Byte) : (s.setA v).a = v := rfl
@[simp] theorem State.setA_x (s : State) (v : Byte) : (s.setA v).x = s.x := rfl
@[simp] theorem State.setA_y (s : State) (v : Byte) : (s.setA v).y = s.y := rfl
@[simp] theorem State.setA_sp (s : State) (v : Byte) : (s.setA v).sp = s.sp := rfl
@[simp] theorem State.setA_pc (s : State) (v : Byte) : (s.setA v).pc = s.pc := rfl
@[simp] theorem State.setA_p (s : State) (v : Byte) : (s.setA v).p = s.p := rfl
@[simp] theorem State.setA_cyc (s : State) (v : Byte) : (s.setA v).cyc = s.cyc := rfl
@[simp] theorem State.setA_nmiPending (s : State) (v : Byte) : (s.setA v).nmiPending = s.nmiPending := rfl
@[simp] theorem State.setA_irqPending (s : State) (v : Byte) : (s.setA v).irqPending = s.irqPending := rfl
@[simp] theorem State.setA_halted (s : State) (v : Byte) : (s.setA v).halted = s.halted := rfl
@[simp] theorem State.setA_mem (s : State) (v : Byte) : (s.setA v).mem = s.mem := rfl
@[simp] theorem State.setA_platform (s : State) (v : Byte) : (s.setA v).platform = s.platform := rfl
@[simp] theorem State.setA_recorder (s : State) (v : Byte) : (s.setA v).recorder = s.recorder := rfl

@[simp] theorem State.setX_a (s : State) (v : Byte) : (s.setX v).a = s.a := rfl
@[simp] theorem State.setX_x (s : State) (v : Byte) : (s.setX v).x = v := rfl
@[simp] theorem State.setX_y (s : State) (v : Byte) : (s.setX v).y = s.y := rfl
@[simp] theorem State.setX_sp (s : State) (v : Byte) : (s.setX v).sp = s.sp := rfl
@[simp] theorem State.setX_pc (s : State) (v : Byte) : (s.setX v).pc = s.pc := rfl
@[simp] theorem State.setX_p (s : State) (v : Byte) : (s.setX v).p = s.p := rfl
@[simp] theorem State.setX_cyc (s : State) (v : Byte) : (s.setX v).cyc = s.cyc := rfl
@[simp] theorem State.setX_nmiPending (s : State) (v : Byte) : (s.setX v).nmiPending = s.nmiPending := rfl
@[simp] theorem State.setX_irqPending (s : State) (v : Byte) : (s.setX v).irqPending = s.irqPending := rfl
@[simp] theorem State.setX_halted (s : State) (v : Byte) : (s.setX v).halted = s.halted := rfl
@[simp] theorem State.setX_mem (s : State) (v : Byte) : (s.setX v).mem = s.mem := rfl
@[simp] theorem State.setX_platform (s : State) (v : Byte) : (s.setX v).platform = s.platform := rfl
@[simp] theorem State.setX_recorder (s : State) (v : Byte) : (s.setX v).recorder = s.recorder := rfl

@[simp] theorem State.setY_a (s : State) (v : Byte) : (s.setY v).a = s.a := rfl
@[simp] theorem State.setY_x (s : State) (v : Byte) : (s.setY v).x = s.x := rfl
@[simp] theorem State.setY_y (s : State) (v : Byte) : (s.setY v).y = v := rfl
@[simp] theorem State.setY_sp (s : State) (v : Byte) : (s.setY v).sp = s.sp := rfl
@[simp] theorem State.setY_pc (s : State) (v : Byte) : (s.setY v).pc = s.pc := rfl
@[simp] theorem State.setY_p (s : State) (v : Byte) : (s.setY v).p = s.p := rfl
@[simp] theorem State.setY_cyc (s : State) (v : Byte) : (s.setY v).cyc = s.cyc := rfl
@[simp] theorem State.setY_nmiPending (s : State) (v : Byte) : (s.setY v).nmiPending = s.nmiPending := rfl
@[simp] theorem State.setY_irqPending (s : State) (v : Byte) : (s.setY v).irqPending = s.irqPending := rfl
@[simp] theorem State.setY_halted (s : State) (v : Byte) : (s.setY v).halted = s.halted := rfl
@[simp] theorem State.setY_mem (s : State) (v : Byte) : (s.setY v).mem = s.mem := rfl
@[simp] theorem State.setY_platform (s : State) (v : Byte) : (s.setY v).platform = s.platform := rfl
@[simp] theorem State.setY_recorder (s : State) (v : Byte) : (s.setY v).recorder = s.recorder := rfl

@[simp] theorem State.setSp_a (s : State) (v : Byte) : (s.setSp v).a = s.a := rfl
@[simp] theorem State.setSp_x (s : State) (v : Byte) : (s.setSp v).x = s.x := rfl
@[simp] theorem State.setSp_y (s : State) (v : Byte) : (s.setSp v).y = s.y := rfl
@[simp] theorem State.setSp_sp (s : State) (v : Byte) : (s.setSp v).sp = v := rfl
@[simp] theorem State.setSp_pc (s : State) (v : Byte) : (s.setSp v).pc = s.pc := rfl
@[simp] theorem State.setSp_p (s : State) (v : Byte) : (s.setSp v).p = s.p := rfl
@[simp] theorem State.setSp_cyc (s : State) (v : Byte) : (s.setSp v).cyc = s.cyc := rfl
@[simp] theorem State.setSp_nmiPending (s : State) (v : Byte) : (s.setSp v).nmiPending = s.nmiPending := rfl
@[simp] theorem State.setSp_irqPending (s : State) (v : Byte) : (s.setSp v).irqPending = s.irqPending := rfl
@[simp] theorem State.setSp_halted (s : State) (v : Byte) : (s.setSp v).halted = s.halted := rfl
@[simp] theorem State.setSp_mem (s : State) (v : Byte) : (s.setSp v).mem = s.mem := rfl
@[simp] theorem State.setSp_platform (s : State) (v : Byte) : (s.setSp v).platform = s.platform := rfl
@[simp] theorem State.setSp_recorder (s : State) (v : Byte) : (s.setSp v).recorder = s.recorder := rfl

@[simp] theorem State.setPc_a (s : State) (w : Word) : (s.setPc w).a = s.a := rfl
@[simp] theorem State.setPc_x (s : State) (w : Word) : (s.setPc w).x = s.x := rfl
@[simp] theorem State.setPc_y (s : State) (w : Word) : (s.setPc w).y = s.y := rfl
@[simp] theorem State.setPc_sp (s : State) (w : Word) : (s.setPc w).sp = s.sp := rfl
@[simp] theorem State.setPc_pc (s : State) (w : Word) : (s.setPc w).pc = w := rfl
@[simp] theorem State.setPc_p (s : State) (w : Word) : (s.setPc w).p = s.p := rfl
@[simp] theorem State.setPc_cyc (s : State) (w : Word) : (s.setPc w).cyc = s.cyc := rfl
@[simp] theorem State.setPc_nmiPending (s : State) (w : Word) : (s.setPc w).nmiPending = s.nmiPending := rfl
@[simp] theorem State.setPc_irqPending (s : State) (w : Word) : (s.setPc w).irqPending = s.irqPending := rfl
@[simp] theorem State.setPc_halted (s : State) (w : Word) : (s.setPc w).halted = s.halted := rfl
@[simp] theorem State.setPc_mem (s : State) (w : Word) : (s.setPc w).mem = s.mem := rfl
@[simp] theorem State.setPc_platform (s : State) (w : Word) : (s.setPc w).platform = s.platform := rfl
@[simp] theorem State.setPc_recorder (s : State) (w : Word) : (s.setPc w).recorder = s.recorder := rfl

@[simp] theorem State.setP_a (s : State) (v : Byte) : (s.setP v).a = s.a := rfl
@[simp] theorem State.setP_x (s : State) (v : Byte) : (s.setP v).x = s.x := rfl
@[simp] theorem State.setP_y (s : State) (v : Byte) : (s.setP v).y = s.y := rfl
@[simp] theorem State.setP_sp (s : State) (v : Byte) : (s.setP v).sp = s.sp := rfl
@[simp] theorem State.setP_pc (s : State) (v : Byte) : (s.setP v).pc = s.pc := rfl
@[simp] theorem State.setP_p (s : State) (v : Byte) : (s.setP v).p = v := rfl
@[simp] theorem State.setP_cyc (s : State) (v : Byte) : (s.setP v).cyc = s.cyc := rfl
@[simp] theorem State.setP_nmiPending (s : State) (v : Byte) : (s.setP v).nmiPending = s.nmiPending := rfl
@[simp] theorem State.setP_irqPending (s : State) (v : Byte) : (s.setP v).irqPending = s.irqPending := rfl
@[simp] theorem State.setP_halted (s : State) (v : Byte) : (s.setP v).halted = s.halted := rfl
@[simp] theorem State.setP_mem (s : State) (v : Byte) : (s.setP v).mem = s.mem := rfl
@[simp] theorem State.setP_platform (s : State) (v : Byte) : (s.setP v).platform = s.platform := rfl
@[simp] theorem State.setP_recorder (s : State) (v : Byte) : (s.setP v).recorder = s.recorder := rfl

@[simp] theorem State.addCyc_a (s : State) (n : Nat) : (s.addCyc n).a = s.a := rfl
@[simp] theorem State.addCyc_x (s : State) (n : Nat) : (s.addCyc n).x = s.x := rfl
@[simp] theorem State.addCyc_y (s : State) (n : Nat) : (s.addCyc n).y = s.y := rfl
@[simp] theorem State.addCyc_sp (s : State) (n : Nat) : (s.addCyc n).sp = s.sp := rfl
@[simp] theorem State.addCyc_pc (s : State) (n : Nat) : (s.addCyc n).pc = s.pc := rfl
@[simp] theorem State.addCyc_p (s : State) (n : Nat) : (s.addCyc n).p = s.p := rfl
@[simp] theorem State.addCyc_cyc (s : State) (n : Nat) : (s.addCyc n).cyc = s.cyc + n := rfl
@[simp] theorem State.addCyc_nmiPending (s : State) (n : Nat) : (s.addCyc n).nmiPending = s.nmiPending := rfl
@[simp] theorem State.addCyc_irqPending (s : State) (n : Nat) : (s.addCyc n).irqPending = s.irqPending := rfl
@[simp] theorem State.addCyc_halted (s : State) (n : Nat) : (s.addCyc n).halted = s.halted := rfl
@[simp] theorem State.addCyc_mem (s : State) (n : Nat) : (s.addCyc n).mem = s.mem := rfl
@[simp] theorem State.addCyc_platform (s : State) (n : Nat) : (s.addCyc n).platform = s.platform := rfl
@[simp] theorem State.addCyc_recorder (s : State) (n : Nat) : (s.addCyc n).recorder = s.recorder := rfl

@[simp] theorem State.setNmi_a (s : State) (b : Bool) : (s.setNmi b).a = s.a := rfl
@[simp] theorem State.setNmi_x (s : State) (b : Bool) : (s.setNmi b).x = s.x := rfl
@[simp] theorem State.setNmi_y (s : State) (b : Bool) : (s.setNmi b).y = s.y := rfl
@[simp] theorem State.setNmi_sp (s : State) (b : Bool) : (s.setNmi b).sp = s.sp := rfl
@[simp] theorem State.setNmi_pc (s : State) (b : Bool) : (s.setNmi b).pc = s.pc := rfl
@[simp] theorem State.setNmi_p (s : State) (b : Bool) : (s.setNmi b).p = s.p := rfl
@[simp] theorem State.setNmi_cyc (s : State) (b : Bool) : (s.setNmi b).cyc = s.cyc := rfl
@[simp] theorem State.setNmi_nmiPending (s : State) (b : Bool) : (s.setNmi b).nmiPending = b := rfl
@[simp] theorem State.setNmi_irqPending (s : State) (b : Bool) : (s.setNmi b).irqPending = s.irqPending := rfl
@[simp] theorem State.setNmi_halted (s : State) (b : Bool) : (s.setNmi b).halted = s.halted := rfl
@[simp] theorem State.setNmi_mem (s : State) (b : Bool) : (s.setNmi b).mem = s.mem := rfl
@[simp] theorem State.setNmi_platform (s : State) (b : Bool) : (s.setNmi b).platform = s.platform := rfl
@[simp] theorem State.setNmi_recorder (s : State) (b : Bool) : (s.setNmi b).recorder = s.recorder := rfl

@[simp] theorem State.setIrq_a (s : State) (b : Bool) : (s.setIrq b).a = s.a := rfl
@[simp] theorem State.setIrq_x (s : State) (b : Bool) : (s.setIrq b).x = s.x := rfl
@[simp] theorem State.setIrq_y (s : State) (b : Bool) : (s.setIrq b).y = s.y := rfl
@[simp] theorem State.setIrq_sp (s : State) (b : Bool) : (s.setIrq b).sp = s.sp := rfl
@[simp] theorem State.setIrq_pc (s : State) (b : Bool) : (s.setIrq b).pc = s.pc := rfl
@[simp] theorem State.setIrq_p (s : State) (b : Bool) : (s.setIrq b).p = s.p := rfl
@[simp] theorem State.setIrq_cyc (s : State) (b : Bool) : (s.setIrq b).cyc = s.cyc := rfl
@[simp] theorem State.setIrq_nmiPending (s : State) (b : Bool) : (s.setIrq b).nmiPending = s.nmiPending := rfl
@[simp] theorem State.setIrq_irqPending (s : State) (b : Bool) : (s.setIrq b).irqPending = b := rfl
@[simp] theorem State.setIrq_halted (s : State) (b : Bool) : (s.setIrq b).halted = s.halted := rfl
@[simp] theorem State.setIrq_mem (s : State) (b : Bool) : (s.setIrq b).mem = s.mem := rfl
@[simp] theorem State.setIrq_platform (s : State) (b : Bool) : (s.setIrq b).platform = s.platform := rfl
@[simp] theorem State.setIrq_recorder (s : State) (b : Bool) : (s.setIrq b).recorder = s.recorder := rfl

@[simp] theorem State.setMem_a (s : State) (m : Memory) : (s.setMem m).a = s.a := rfl
@[simp] theorem State.setMem_x (s : State) (m : Memory) : (s.setMem m).x = s.x := rfl
@[simp] theorem State.setMem_y (s : State) (m : Memory) : (s.setMem m).y = s.y := rfl
@[simp] theorem State.setMem_sp (s : State) (m : Memory) : (s.setMem m).sp = s.sp := rfl
@[simp] theorem State.setMem_pc (s : State) (m : Memory) : (s.setMem m).pc = s.pc := rfl
@[simp] theorem State.setMem_p (s : State) (m : Memory) : (s.setMem m).p = s.p := rfl
@[simp] theorem State.setMem_cyc (s : State) (m : Memory) : (s.setMem m).cyc = s.cyc := rfl
@[simp] theorem State.setMem_nmiPending (s : State) (m : Memory) : (s.setMem m).nmiPending = s.nmiPending := rfl
@[simp] theorem State.setMem_irqPending (s : State) (m : Memory) : (s.setMem m).irqPending = s.irqPending := rfl
@[simp] theorem State.setMem_halted (s : State) (m : Memory) : (s.setMem m).halted = s.halted := rfl
@[simp] theorem State.setMem_mem (s : State) (m : Memory) : (s.setMem m).mem = m := rfl
@[simp] theorem State.setMem_platform (s : State) (m : Memory) : (s.setMem m).platform = s.platform := rfl
@[simp] theorem State.setMem_recorder (s : State) (m : Memory) : (s.setMem m).recorder = s.recorder := rfl

@[simp] theorem State.setRecorder_a (s : State) (r : Recorder) : (s.setRecorder r).a = s.a := rfl
@[simp] theorem State.setRecorder_x (s : State) (r : Recorder) : (s.setRecorder r).x = s.x := rfl
@[simp] theorem State.setRecorder_y (s : State) (r : Recorder) : (s.setRecorder r).y = s.y := rfl
@[simp] theorem State.setRecorder_sp (s : State) (r : Recorder) : (s.setRecorder r).sp = s.sp := rfl
@[simp] theorem State.setRecorder_pc (s : State) (r : Recorder) : (s.setRecorder r).pc = s.pc := rfl
@[simp] theorem State.setRecorder_p (s : State) (r : Recorder) : (s.setRecorder r).p = s.p := rfl
@[simp] theorem State.setRecorder_cyc (s : State) (r : Recorder) : (s.setRecorder r).cyc = s.cyc := rfl
@[simp] theorem State.setRecorder_nmiPending (s : State) (r : Recorder) : (s.setRecorder r).nmiPending = s.nmiPending := rfl
@[simp] theorem State.setRecorder_irqPending (s : State) (r : Recorder) : (s.setRecorder r).irqPending = s.irqPending := rfl
@[simp] theorem State.setRecorder_halted (s : State) (r : Recorder) : (s.setRecorder r).halted = s.halted := rfl
@[simp] theorem State.setRecorder_mem (s : State) (r : Recorder) : (s.setRecorder r).mem = s.mem := rfl
@[simp] theorem State.setRecorder_platform (s : State) (r : Recorder) : (s.setRecorder r).platform = s.platform := rfl
@[simp] theorem State.setRecorder_recorder (s : State) (r : Recorder) : (s.setRecorder r).recorder = r := rfl

@[simp] theorem State.latchHalt_a (s : State) (b : Byte) : (s.latchHalt b).a = s.a := rfl
@[simp] theorem State.latchHalt_x (s : State) (b : Byte) : (s.latchHalt b).x = s.x := rfl
@[simp] theorem State.latchHalt_y (s : State) (b : Byte) : (s.latchHalt b).y = s.y := rfl
@[simp] theorem State.latchHalt_sp (s : State) (b : Byte) : (s.latchHalt b).sp = s.sp := rfl
@[simp] theorem State.latchHalt_pc (s : State) (b : Byte) : (s.latchHalt b).pc = s.pc := rfl
@[simp] theorem State.latchHalt_p (s : State) (b : Byte) : (s.latchHalt b).p = s.p := rfl
@[simp] theorem State.latchHalt_cyc (s : State) (b : Byte) : (s.latchHalt b).cyc = s.cyc := rfl
@[simp] theorem State.latchHalt_nmiPending (s : State) (b : Byte) : (s.latchHalt b).nmiPending = s.nmiPending := rfl
@[simp] theorem State.latchHalt_irqPending (s : State) (b : Byte) : (s.latchHalt b).irqPending = s.irqPending := rfl
@[simp] theorem State.latchHalt_halted (s : State) (b : Byte) : (s.latchHalt b).halted = some b := rfl
@[simp] theorem State.latchHalt_mem (s : State) (b : Byte) : (s.latchHalt b).mem = s.mem := rfl
@[simp] theorem State.latchHalt_platform (s : State) (b : Byte) : (s.latchHalt b).platform = s.platform := rfl
@[simp] theorem State.latchHalt_recorder (s : State) (b : Byte) : (s.latchHalt b).recorder = s.recorder := rfl

@[simp] theorem State.setFlag_a (s : State) (n : Nat) (b : Bool) : (s.setFlag n b).a = s.a := rfl
@[simp] theorem State.setFlag_x (s : State) (n : Nat) (b : Bool) : (s.setFlag n b).x = s.x := rfl
@[simp] theorem State.setFlag_y (s : State) (n : Nat) (b : Bool) : (s.setFlag n b).y = s.y := rfl
@[simp] theorem State.setFlag_sp (s : State) (n : Nat) (b : Bool) : (s.setFlag n b).sp = s.sp := rfl
@[simp] theorem State.setFlag_pc (s : State) (n : Nat) (b : Bool) : (s.setFlag n b).pc = s.pc := rfl
@[simp] theorem State.setFlag_p (s : State) (n : Nat) (b : Bool) : (s.setFlag n b).p = withFlag s.p n b := rfl
@[simp] theorem State.setFlag_cyc (s : State) (n : Nat) (b : Bool) : (s.setFlag n b).cyc = s.cyc := rfl
@[simp] theorem State.setFlag_nmiPending (s : State) (n : Nat) (b : Bool) : (s.setFlag n b).nmiPending = s.nmiPending := rfl
@[simp] theorem State.setFlag_irqPending (s : State) (n : Nat) (b : Bool) : (s.setFlag n b).irqPending = s.irqPending := rfl
@[simp] theorem State.setFlag_halted (s : State) (n : Nat) (b : Bool) : (s.setFlag n b).halted = s.halted := rfl
@[simp] theorem State.setFlag_mem (s : State) (n : Nat) (b : Bool) : (s.setFlag n b).mem = s.mem := rfl
@[simp] theorem State.setFlag_platform (s : State) (n : Nat) (b : Bool) : (s.setFlag n b).platform = s.platform := rfl
@[simp] theorem State.setFlag_recorder (s : State) (n : Nat) (b : Bool) : (s.setFlag n b).recorder = s.recorder := rfl

@[simp] theorem State.setZN_a (s : State) (v : Byte) : (s.setZN v).a = s.a := rfl
@[simp] theorem State.setZN_x (s : State) (v : Byte) : (s.setZN v).x = s.x := rfl
@[simp] theorem State.setZN_y (s : State) (v : Byte) : (s.setZN v).y = s.y := rfl
@[simp] theorem State.setZN_sp (s : State) (v : Byte) : (s.setZN v).sp = s.sp := rfl
@[simp] theorem State.setZN_pc (s : State) (v : Byte) : (s.setZN v).pc = s.pc := rfl
@[simp] theorem State.setZN_p (s : State) (v : Byte) : (s.setZN v).p = withZN s.p v := rfl
@[simp] theorem State.setZN_cyc (s : State) (v : Byte) : (s.setZN v).cyc = s.cyc := rfl
@[simp] theorem State.setZN_nmiPending (s : State) (v : Byte) : (s.setZN v).nmiPending = s.nmiPending := rfl
@[simp] theorem State.setZN_irqPending (s : State) (v : Byte) : (s.setZN v).irqPending = s.irqPending := rfl
@[simp] theorem State.setZN_halted (s : State) (v : Byte) : (s.setZN v).halted = s.halted := rfl
@[simp] theorem State.setZN_mem (s : State) (v : Byte) : (s.setZN v).mem = s.mem := rfl
@[simp] theorem State.setZN_platform (s : State) (v : Byte) : (s.setZN v).platform = s.platform := rfl
@[simp] theorem State.setZN_recorder (s : State) (v : Byte) : (s.setZN v).recorder = s.recorder := rfl

end Sys2Proof.Machine
end

