-- ==== Sys2Proof/Laws/Ops.lean ====
section
/-! SUPPORT. What the bus and stack operations do (20_memory.md R52 to R63), taking an interrupt and returning from one
(60_exceptions.md R316, R317; 48_system.md R257), said once for later proofs to cite. -/

namespace Sys2Proof.Machine

/-! ### The bus -/

@[simp] theorem State.write_a (s : State) (a : Word) (v : Byte) : (s.write a v).a = s.a := by
  unfold State.write; split <;> rfl
@[simp] theorem State.write_x (s : State) (a : Word) (v : Byte) : (s.write a v).x = s.x := by
  unfold State.write; split <;> rfl
@[simp] theorem State.write_y (s : State) (a : Word) (v : Byte) : (s.write a v).y = s.y := by
  unfold State.write; split <;> rfl
@[simp] theorem State.write_sp (s : State) (a : Word) (v : Byte) : (s.write a v).sp = s.sp := by
  unfold State.write; split <;> rfl
@[simp] theorem State.write_pc (s : State) (a : Word) (v : Byte) : (s.write a v).pc = s.pc := by
  unfold State.write; split <;> rfl
@[simp] theorem State.write_p (s : State) (a : Word) (v : Byte) : (s.write a v).p = s.p := by
  unfold State.write; split <;> rfl
@[simp] theorem State.write_cyc (s : State) (a : Word) (v : Byte) : (s.write a v).cyc = s.cyc := by
  unfold State.write; split <;> rfl
@[simp] theorem State.write_nmiPending (s : State) (a : Word) (v : Byte) : (s.write a v).nmiPending = s.nmiPending := by
  unfold State.write; split <;> rfl
@[simp] theorem State.write_irqPending (s : State) (a : Word) (v : Byte) : (s.write a v).irqPending = s.irqPending := by
  unfold State.write; split <;> rfl
@[simp] theorem State.write_halted (s : State) (a : Word) (v : Byte) : (s.write a v).halted = s.halted := by
  unfold State.write; split <;> rfl
@[simp] theorem State.write_platform (s : State) (a : Word) (v : Byte) : (s.write a v).platform = s.platform := by
  unfold State.write; split <;> rfl
@[simp] theorem State.write_recorder (s : State) (a : Word) (v : Byte) : (s.write a v).recorder = s.recorder := by
  unfold State.write; split <;> rfl

/-- The storage after a bus write (R53). -/
theorem State.write_mem (s : State) (a : Word) (v : Byte) :
    (s.write a v).mem =
      if mapped s.platform a && writable s.platform (canon s.platform a) then
        Memory.set s.mem (canon s.platform a).toNat v
      else s.mem := by
  unfold State.write; split <;> rfl

/-- A bus write touches the storage and nothing else (R53). -/
theorem State.write_eq (s : State) (a : Word) (v : Byte) : s.write a v = { s with mem := (s.write a v).mem } := by
  unfold State.write; split <;> rfl

/-- A bus write keeps the canonical form. -/
theorem State.write_wf {s : State} (h : Memory.wf s.mem = true) (a : Word) (v : Byte) :
    Memory.wf (s.write a v).mem = true := by
  rw [State.write_mem]
  split
  · exact Memory.wf_set h _ _ (canon s.platform a).isLt
  · exact h

/-- A read depends on the storage and the parameters only. -/
theorem State.read_congr {s t : State} (hm : t.mem = s.mem) (hp : t.platform = s.platform) (a : Word) :
    t.read a = s.read a := by
  simp [State.read, hm, hp]

/-- A write that lands is read back through every address of the same cell (R70). -/
theorem State.read_write_same {s : State} (h : Memory.wf s.mem = true) {a b : Word} (v : Byte)
    (hm : mapped s.platform a = true) (hw : writable s.platform (canon s.platform a) = true)
    (hb : mapped s.platform b = true) (hc : canon s.platform b = canon s.platform a) :
    (s.write a v).read b = v := by
  simp [State.read, State.write_mem, hm, hw, hb, hc, Memory.get_set_same h]

/-- A write leaves every other cell as it was. -/
theorem State.read_write_other {s : State} {a b : Word} (v : Byte)
    (hc : canon s.platform b ≠ canon s.platform a) : (s.write a v).read b = s.read b := by
  have hne : (canon s.platform b).toNat ≠ (canon s.platform a).toNat := fun h => hc (BitVec.eq_of_toNat_eq h)
  simp only [State.read, State.write_platform, State.write_mem]
  split
  · split
    · exact Memory.get_set_other _ hne _
    · rfl
  · rfl

/-- A write to an address that is not mapped, or to a cell that is not writable, changes nothing (R53). -/
theorem State.write_ignored {s : State} {a : Word}
    (h : (mapped s.platform a && writable s.platform (canon s.platform a)) = false) (v : Byte) :
    s.write a v = s := by
  simp [State.write, h]

/-! ### Reads after register writes -/

@[simp] theorem State.setA_read (s : State) (v : Byte) (a : Word) : (s.setA v).read a = s.read a := rfl
@[simp] theorem State.setX_read (s : State) (v : Byte) (a : Word) : (s.setX v).read a = s.read a := rfl
@[simp] theorem State.setY_read (s : State) (v : Byte) (a : Word) : (s.setY v).read a = s.read a := rfl
@[simp] theorem State.setSp_read (s : State) (v : Byte) (a : Word) : (s.setSp v).read a = s.read a := rfl
@[simp] theorem State.setPc_read (s : State) (w : Word) (a : Word) : (s.setPc w).read a = s.read a := rfl
@[simp] theorem State.setP_read (s : State) (v : Byte) (a : Word) : (s.setP v).read a = s.read a := rfl
@[simp] theorem State.addCyc_read (s : State) (n : Nat) (a : Word) : (s.addCyc n).read a = s.read a := rfl
@[simp] theorem State.setNmi_read (s : State) (b : Bool) (a : Word) : (s.setNmi b).read a = s.read a := rfl
@[simp] theorem State.setIrq_read (s : State) (b : Bool) (a : Word) : (s.setIrq b).read a = s.read a := rfl
@[simp] theorem State.setRecorder_read (s : State) (r : Recorder) (a : Word) : (s.setRecorder r).read a = s.read a := rfl
@[simp] theorem State.latchHalt_read (s : State) (b : Byte) (a : Word) : (s.latchHalt b).read a = s.read a := rfl
@[simp] theorem State.setFlag_read (s : State) (n : Nat) (b : Bool) (a : Word) : (s.setFlag n b).read a = s.read a := rfl
@[simp] theorem State.setZN_read (s : State) (v : Byte) (a : Word) : (s.setZN v).read a = s.read a := rfl

/-! ### The stack -/

@[simp] theorem State.push8_a (s : State) (v : Byte) : (s.push8 v).a = s.a := by
  simp [State.push8]
@[simp] theorem State.push8_x (s : State) (v : Byte) : (s.push8 v).x = s.x := by
  simp [State.push8]
@[simp] theorem State.push8_y (s : State) (v : Byte) : (s.push8 v).y = s.y := by
  simp [State.push8]
@[simp] theorem State.push8_pc (s : State) (v : Byte) : (s.push8 v).pc = s.pc := by
  simp [State.push8]
@[simp] theorem State.push8_p (s : State) (v : Byte) : (s.push8 v).p = s.p := by
  simp [State.push8]
@[simp] theorem State.push8_cyc (s : State) (v : Byte) : (s.push8 v).cyc = s.cyc := by
  simp [State.push8]
@[simp] theorem State.push8_nmiPending (s : State) (v : Byte) : (s.push8 v).nmiPending = s.nmiPending := by
  simp [State.push8]
@[simp] theorem State.push8_irqPending (s : State) (v : Byte) : (s.push8 v).irqPending = s.irqPending := by
  simp [State.push8]
@[simp] theorem State.push8_halted (s : State) (v : Byte) : (s.push8 v).halted = s.halted := by
  simp [State.push8]
@[simp] theorem State.push8_platform (s : State) (v : Byte) : (s.push8 v).platform = s.platform := by
  simp [State.push8]
@[simp] theorem State.push8_recorder (s : State) (v : Byte) : (s.push8 v).recorder = s.recorder := by
  simp [State.push8]

@[simp] theorem State.push8_sp (s : State) (v : Byte) : (s.push8 v).sp = s.sp - 1 := rfl
@[simp] theorem State.push8_mem (s : State) (v : Byte) : (s.push8 v).mem = (s.write (stackAddress s.sp) v).mem := rfl
theorem State.push8_wf {s : State} (h : Memory.wf s.mem = true) (v : Byte) : Memory.wf (s.push8 v).mem = true := by
  rw [State.push8_mem]
  exact State.write_wf h (stackAddress s.sp) v

@[simp] theorem State.push16_a (s : State) (w : Word) : (s.push16 w).a = s.a := by
  simp [State.push16]
@[simp] theorem State.push16_x (s : State) (w : Word) : (s.push16 w).x = s.x := by
  simp [State.push16]
@[simp] theorem State.push16_y (s : State) (w : Word) : (s.push16 w).y = s.y := by
  simp [State.push16]
@[simp] theorem State.push16_pc (s : State) (w : Word) : (s.push16 w).pc = s.pc := by
  simp [State.push16]
@[simp] theorem State.push16_p (s : State) (w : Word) : (s.push16 w).p = s.p := by
  simp [State.push16]
@[simp] theorem State.push16_cyc (s : State) (w : Word) : (s.push16 w).cyc = s.cyc := by
  simp [State.push16]
@[simp] theorem State.push16_nmiPending (s : State) (w : Word) : (s.push16 w).nmiPending = s.nmiPending := by
  simp [State.push16]
@[simp] theorem State.push16_irqPending (s : State) (w : Word) : (s.push16 w).irqPending = s.irqPending := by
  simp [State.push16]
@[simp] theorem State.push16_halted (s : State) (w : Word) : (s.push16 w).halted = s.halted := by
  simp [State.push16]
@[simp] theorem State.push16_platform (s : State) (w : Word) : (s.push16 w).platform = s.platform := by
  simp [State.push16]
@[simp] theorem State.push16_recorder (s : State) (w : Word) : (s.push16 w).recorder = s.recorder := by
  simp [State.push16]

@[simp] theorem State.push16_sp (s : State) (w : Word) : (s.push16 w).sp = s.sp - 1 - 1 := by
  simp [State.push16]
theorem State.push16_wf {s : State} (h : Memory.wf s.mem = true) (w : Word) : Memory.wf (s.push16 w).mem = true := by
  rw [State.push16]
  exact State.push8_wf (State.push8_wf h (hiByte w)) (loByte w)

/-- The whole effect of a pull on the state is on SP (R61). -/
@[simp] theorem State.pull8_state (s : State) : s.pull8.2 = s.setSp (s.sp + 1) := rfl
@[simp] theorem State.pull8_value (s : State) : s.pull8.1 = s.read (stackAddress (s.sp + 1)) := rfl
@[simp] theorem State.pull16_state (s : State) : s.pull16.2 = (s.setSp (s.sp + 1)).setSp (s.sp + 1 + 1) := rfl
@[simp] theorem State.pull16_value (s : State) :
    s.pull16.1 = joinBytes (s.read (stackAddress (s.sp + 1 + 1))) (s.read (stackAddress (s.sp + 1))) := rfl

/-! ### Interrupt entry and return -/

@[simp] theorem State.enterHandler_a (s : State) (r : Word) (st : Byte) (v : Word) : (s.enterHandler r st v).a = s.a := by
  simp [State.enterHandler]
@[simp] theorem State.enterHandler_x (s : State) (r : Word) (st : Byte) (v : Word) : (s.enterHandler r st v).x = s.x := by
  simp [State.enterHandler]
@[simp] theorem State.enterHandler_y (s : State) (r : Word) (st : Byte) (v : Word) : (s.enterHandler r st v).y = s.y := by
  simp [State.enterHandler]
@[simp] theorem State.enterHandler_cyc (s : State) (r : Word) (st : Byte) (v : Word) : (s.enterHandler r st v).cyc = s.cyc := by
  simp [State.enterHandler]
@[simp] theorem State.enterHandler_nmiPending (s : State) (r : Word) (st : Byte) (v : Word) : (s.enterHandler r st v).nmiPending = s.nmiPending := by
  simp [State.enterHandler]
@[simp] theorem State.enterHandler_irqPending (s : State) (r : Word) (st : Byte) (v : Word) : (s.enterHandler r st v).irqPending = s.irqPending := by
  simp [State.enterHandler]
@[simp] theorem State.enterHandler_halted (s : State) (r : Word) (st : Byte) (v : Word) : (s.enterHandler r st v).halted = s.halted := by
  simp [State.enterHandler]
@[simp] theorem State.enterHandler_platform (s : State) (r : Word) (st : Byte) (v : Word) : (s.enterHandler r st v).platform = s.platform := by
  simp [State.enterHandler]
@[simp] theorem State.enterHandler_recorder (s : State) (r : Word) (st : Byte) (v : Word) : (s.enterHandler r st v).recorder = s.recorder := by
  simp [State.enterHandler]

@[simp] theorem State.enterHandler_sp (s : State) (r : Word) (st : Byte) (v : Word) :
    (s.enterHandler r st v).sp = s.sp - 1 - 1 - 1 := by
  simp [State.enterHandler]
@[simp] theorem State.enterHandler_p (s : State) (r : Word) (st : Byte) (v : Word) :
    (s.enterHandler r st v).p = withFlag s.p interruptBit true := by
  simp [State.enterHandler]
@[simp] theorem State.enterHandler_mem (s : State) (r : Word) (st : Byte) (v : Word) :
    (s.enterHandler r st v).mem = ((s.push16 r).push8 st).mem := by
  simp only [State.enterHandler, State.setPc_mem, State.setFlag_mem]
theorem State.enterHandler_wf {s : State} (h : Memory.wf s.mem = true) (r : Word) (st : Byte) (v : Word) :
    Memory.wf (s.enterHandler r st v).mem = true := by
  rw [State.enterHandler_mem]
  exact State.push8_wf (State.push16_wf h r) st
theorem State.enterHandler_pc (s : State) (r : Word) (st : Byte) (v : Word) :
    (s.enterHandler r st v).pc = ((s.push16 r).push8 st).read16 v := by
  simp only [State.enterHandler, State.setPc_pc, State.read16, State.setFlag_read]

theorem State.service_wf {s : State} (h : Memory.wf s.mem = true) (v : Word) :
    Memory.wf (s.service v).mem = true := by
  rw [State.service, State.addCyc_mem]
  exact State.enterHandler_wf h s.pc (statusPushedByInterrupt s.p) v

/-- The interrupt check serves NMI, or IRQ, or nothing (R316, R320). -/
theorem State.checkInterrupts_cases (s : State) :
    (s.nmiPending = true ∧ s.checkInterrupts = (s.setNmi false).service nmiVector) ∨
    (s.nmiPending = false ∧ s.irqPending = true ∧ flag s.p interruptBit = false ∧
      s.checkInterrupts = (s.setIrq false).service irqVector) ∨
    (s.nmiPending = false ∧ (s.irqPending = false ∨ flag s.p interruptBit = true) ∧ s.checkInterrupts = s) := by
  unfold State.checkInterrupts
  cases hn : s.nmiPending <;> cases hi : s.irqPending <;> cases hf : flag s.p interruptBit <;> simp

/-- With nothing pending the check does nothing. -/
@[simp] theorem State.checkInterrupts_idle {s : State} (hn : s.nmiPending = false)
    (hi : s.irqPending = false) : s.checkInterrupts = s := by
  simp [State.checkInterrupts, hn, hi]

theorem State.checkInterrupts_wf {s : State} (h : Memory.wf s.mem = true) :
    Memory.wf s.checkInterrupts.mem = true := by
  rcases s.checkInterrupts_cases with ⟨_, e⟩ | ⟨_, _, _, e⟩ | ⟨_, _, e⟩ <;> rw [e]
  · exact State.service_wf (s := s.setNmi false) h nmiVector
  · exact State.service_wf (s := s.setIrq false) h irqVector
  · exact h

@[simp] theorem State.checkInterrupts_halted (s : State) : s.checkInterrupts.halted = s.halted := by
  rcases s.checkInterrupts_cases with ⟨_, e⟩ | ⟨_, _, _, e⟩ | ⟨_, _, e⟩ <;> simp [e, State.service]
@[simp] theorem State.checkInterrupts_platform (s : State) : s.checkInterrupts.platform = s.platform := by
  rcases s.checkInterrupts_cases with ⟨_, e⟩ | ⟨_, _, _, e⟩ | ⟨_, _, e⟩ <;> simp [e, State.service]
@[simp] theorem State.checkInterrupts_recorder (s : State) : s.checkInterrupts.recorder = s.recorder := by
  rcases s.checkInterrupts_cases with ⟨_, e⟩ | ⟨_, _, _, e⟩ | ⟨_, _, e⟩ <;> simp [e, State.service]

/-- RTI (48_system.md R257) in one record. -/
theorem State.returnFromInterrupt_eq (s : State) :
    s.returnFromInterrupt =
      { s with
        p := statusPulled s.p (s.read (stackAddress (s.sp + 1)))
        pc := joinBytes (s.read (stackAddress (s.sp + 1 + 1 + 1))) (s.read (stackAddress (s.sp + 1 + 1)))
        sp := s.sp + 1 + 1 + 1 } := rfl

end Sys2Proof.Machine
end

