-- ==== Sys2Proof/Laws/Table.lean ====
section
/-! SUPPORT. The decoder's entry, one lemma for each documented opcode byte and for each instruction (30_encoding.md R84,
R86), and none for the others (R88). -/

namespace Sys2Proof.Laws

@[simp] theorem decodeSpec_00 : decodeSpec 0x00#8 = ⟨.brk, .implied, 7, false, true⟩ := by rfl
@[simp] theorem decodeSpec_01 : decodeSpec 0x01#8 = ⟨.ora, .indirectX, 6, false, true⟩ := by rfl
@[simp] theorem decodeSpec_05 : decodeSpec 0x05#8 = ⟨.ora, .zeroPage, 3, false, true⟩ := by rfl
@[simp] theorem decodeSpec_06 : decodeSpec 0x06#8 = ⟨.asl, .zeroPage, 5, false, true⟩ := by rfl
@[simp] theorem decodeSpec_08 : decodeSpec 0x08#8 = ⟨.php, .implied, 3, false, true⟩ := by rfl
@[simp] theorem decodeSpec_09 : decodeSpec 0x09#8 = ⟨.ora, .immediate, 2, false, true⟩ := by rfl
@[simp] theorem decodeSpec_0A : decodeSpec 0x0A#8 = ⟨.asl, .accumulator, 2, false, true⟩ := by rfl
@[simp] theorem decodeSpec_0D : decodeSpec 0x0D#8 = ⟨.ora, .absolute, 4, false, true⟩ := by rfl
@[simp] theorem decodeSpec_0E : decodeSpec 0x0E#8 = ⟨.asl, .absolute, 6, false, true⟩ := by rfl
@[simp] theorem decodeSpec_10 : decodeSpec 0x10#8 = ⟨.bpl, .relative, 2, false, true⟩ := by rfl
@[simp] theorem decodeSpec_11 : decodeSpec 0x11#8 = ⟨.ora, .indirectY, 5, true, true⟩ := by rfl
@[simp] theorem decodeSpec_15 : decodeSpec 0x15#8 = ⟨.ora, .zeroPageX, 4, false, true⟩ := by rfl
@[simp] theorem decodeSpec_16 : decodeSpec 0x16#8 = ⟨.asl, .zeroPageX, 6, false, true⟩ := by rfl
@[simp] theorem decodeSpec_18 : decodeSpec 0x18#8 = ⟨.clc, .implied, 2, false, true⟩ := by rfl
@[simp] theorem decodeSpec_19 : decodeSpec 0x19#8 = ⟨.ora, .absoluteY, 4, true, true⟩ := by rfl
@[simp] theorem decodeSpec_1D : decodeSpec 0x1D#8 = ⟨.ora, .absoluteX, 4, true, true⟩ := by rfl
@[simp] theorem decodeSpec_1E : decodeSpec 0x1E#8 = ⟨.asl, .absoluteX, 7, false, true⟩ := by rfl
@[simp] theorem decodeSpec_20 : decodeSpec 0x20#8 = ⟨.jsr, .absolute, 6, false, true⟩ := by rfl
@[simp] theorem decodeSpec_21 : decodeSpec 0x21#8 = ⟨.and, .indirectX, 6, false, true⟩ := by rfl
@[simp] theorem decodeSpec_24 : decodeSpec 0x24#8 = ⟨.bit, .zeroPage, 3, false, true⟩ := by rfl
@[simp] theorem decodeSpec_25 : decodeSpec 0x25#8 = ⟨.and, .zeroPage, 3, false, true⟩ := by rfl
@[simp] theorem decodeSpec_26 : decodeSpec 0x26#8 = ⟨.rol, .zeroPage, 5, false, true⟩ := by rfl
@[simp] theorem decodeSpec_28 : decodeSpec 0x28#8 = ⟨.plp, .implied, 4, false, true⟩ := by rfl
@[simp] theorem decodeSpec_29 : decodeSpec 0x29#8 = ⟨.and, .immediate, 2, false, true⟩ := by rfl
@[simp] theorem decodeSpec_2A : decodeSpec 0x2A#8 = ⟨.rol, .accumulator, 2, false, true⟩ := by rfl
@[simp] theorem decodeSpec_2C : decodeSpec 0x2C#8 = ⟨.bit, .absolute, 4, false, true⟩ := by rfl
@[simp] theorem decodeSpec_2D : decodeSpec 0x2D#8 = ⟨.and, .absolute, 4, false, true⟩ := by rfl
@[simp] theorem decodeSpec_2E : decodeSpec 0x2E#8 = ⟨.rol, .absolute, 6, false, true⟩ := by rfl
@[simp] theorem decodeSpec_30 : decodeSpec 0x30#8 = ⟨.bmi, .relative, 2, false, true⟩ := by rfl
@[simp] theorem decodeSpec_31 : decodeSpec 0x31#8 = ⟨.and, .indirectY, 5, true, true⟩ := by rfl
@[simp] theorem decodeSpec_35 : decodeSpec 0x35#8 = ⟨.and, .zeroPageX, 4, false, true⟩ := by rfl
@[simp] theorem decodeSpec_36 : decodeSpec 0x36#8 = ⟨.rol, .zeroPageX, 6, false, true⟩ := by rfl
@[simp] theorem decodeSpec_38 : decodeSpec 0x38#8 = ⟨.sec, .implied, 2, false, true⟩ := by rfl
@[simp] theorem decodeSpec_39 : decodeSpec 0x39#8 = ⟨.and, .absoluteY, 4, true, true⟩ := by rfl
@[simp] theorem decodeSpec_3D : decodeSpec 0x3D#8 = ⟨.and, .absoluteX, 4, true, true⟩ := by rfl
@[simp] theorem decodeSpec_3E : decodeSpec 0x3E#8 = ⟨.rol, .absoluteX, 7, false, true⟩ := by rfl
@[simp] theorem decodeSpec_40 : decodeSpec 0x40#8 = ⟨.rti, .implied, 6, false, true⟩ := by rfl
@[simp] theorem decodeSpec_41 : decodeSpec 0x41#8 = ⟨.eor, .indirectX, 6, false, true⟩ := by rfl
@[simp] theorem decodeSpec_45 : decodeSpec 0x45#8 = ⟨.eor, .zeroPage, 3, false, true⟩ := by rfl
@[simp] theorem decodeSpec_46 : decodeSpec 0x46#8 = ⟨.lsr, .zeroPage, 5, false, true⟩ := by rfl
@[simp] theorem decodeSpec_48 : decodeSpec 0x48#8 = ⟨.pha, .implied, 3, false, true⟩ := by rfl
@[simp] theorem decodeSpec_49 : decodeSpec 0x49#8 = ⟨.eor, .immediate, 2, false, true⟩ := by rfl
@[simp] theorem decodeSpec_4A : decodeSpec 0x4A#8 = ⟨.lsr, .accumulator, 2, false, true⟩ := by rfl
@[simp] theorem decodeSpec_4C : decodeSpec 0x4C#8 = ⟨.jmp, .absolute, 3, false, true⟩ := by rfl
@[simp] theorem decodeSpec_4D : decodeSpec 0x4D#8 = ⟨.eor, .absolute, 4, false, true⟩ := by rfl
@[simp] theorem decodeSpec_4E : decodeSpec 0x4E#8 = ⟨.lsr, .absolute, 6, false, true⟩ := by rfl
@[simp] theorem decodeSpec_50 : decodeSpec 0x50#8 = ⟨.bvc, .relative, 2, false, true⟩ := by rfl
@[simp] theorem decodeSpec_51 : decodeSpec 0x51#8 = ⟨.eor, .indirectY, 5, true, true⟩ := by rfl
@[simp] theorem decodeSpec_55 : decodeSpec 0x55#8 = ⟨.eor, .zeroPageX, 4, false, true⟩ := by rfl
@[simp] theorem decodeSpec_56 : decodeSpec 0x56#8 = ⟨.lsr, .zeroPageX, 6, false, true⟩ := by rfl
@[simp] theorem decodeSpec_58 : decodeSpec 0x58#8 = ⟨.cli, .implied, 2, false, true⟩ := by rfl
@[simp] theorem decodeSpec_59 : decodeSpec 0x59#8 = ⟨.eor, .absoluteY, 4, true, true⟩ := by rfl
@[simp] theorem decodeSpec_5D : decodeSpec 0x5D#8 = ⟨.eor, .absoluteX, 4, true, true⟩ := by rfl
@[simp] theorem decodeSpec_5E : decodeSpec 0x5E#8 = ⟨.lsr, .absoluteX, 7, false, true⟩ := by rfl
@[simp] theorem decodeSpec_60 : decodeSpec 0x60#8 = ⟨.rts, .implied, 6, false, true⟩ := by rfl
@[simp] theorem decodeSpec_61 : decodeSpec 0x61#8 = ⟨.adc, .indirectX, 6, false, true⟩ := by rfl
@[simp] theorem decodeSpec_65 : decodeSpec 0x65#8 = ⟨.adc, .zeroPage, 3, false, true⟩ := by rfl
@[simp] theorem decodeSpec_66 : decodeSpec 0x66#8 = ⟨.ror, .zeroPage, 5, false, true⟩ := by rfl
@[simp] theorem decodeSpec_68 : decodeSpec 0x68#8 = ⟨.pla, .implied, 4, false, true⟩ := by rfl
@[simp] theorem decodeSpec_69 : decodeSpec 0x69#8 = ⟨.adc, .immediate, 2, false, true⟩ := by rfl
@[simp] theorem decodeSpec_6A : decodeSpec 0x6A#8 = ⟨.ror, .accumulator, 2, false, true⟩ := by rfl
@[simp] theorem decodeSpec_6C : decodeSpec 0x6C#8 = ⟨.jmp, .indirect, 5, false, true⟩ := by rfl
@[simp] theorem decodeSpec_6D : decodeSpec 0x6D#8 = ⟨.adc, .absolute, 4, false, true⟩ := by rfl
@[simp] theorem decodeSpec_6E : decodeSpec 0x6E#8 = ⟨.ror, .absolute, 6, false, true⟩ := by rfl
@[simp] theorem decodeSpec_70 : decodeSpec 0x70#8 = ⟨.bvs, .relative, 2, false, true⟩ := by rfl
@[simp] theorem decodeSpec_71 : decodeSpec 0x71#8 = ⟨.adc, .indirectY, 5, true, true⟩ := by rfl
@[simp] theorem decodeSpec_75 : decodeSpec 0x75#8 = ⟨.adc, .zeroPageX, 4, false, true⟩ := by rfl
@[simp] theorem decodeSpec_76 : decodeSpec 0x76#8 = ⟨.ror, .zeroPageX, 6, false, true⟩ := by rfl
@[simp] theorem decodeSpec_78 : decodeSpec 0x78#8 = ⟨.sei, .implied, 2, false, true⟩ := by rfl
@[simp] theorem decodeSpec_79 : decodeSpec 0x79#8 = ⟨.adc, .absoluteY, 4, true, true⟩ := by rfl
@[simp] theorem decodeSpec_7D : decodeSpec 0x7D#8 = ⟨.adc, .absoluteX, 4, true, true⟩ := by rfl
@[simp] theorem decodeSpec_7E : decodeSpec 0x7E#8 = ⟨.ror, .absoluteX, 7, false, true⟩ := by rfl
@[simp] theorem decodeSpec_81 : decodeSpec 0x81#8 = ⟨.sta, .indirectX, 6, false, true⟩ := by rfl
@[simp] theorem decodeSpec_84 : decodeSpec 0x84#8 = ⟨.sty, .zeroPage, 3, false, true⟩ := by rfl
@[simp] theorem decodeSpec_85 : decodeSpec 0x85#8 = ⟨.sta, .zeroPage, 3, false, true⟩ := by rfl
@[simp] theorem decodeSpec_86 : decodeSpec 0x86#8 = ⟨.stx, .zeroPage, 3, false, true⟩ := by rfl
@[simp] theorem decodeSpec_88 : decodeSpec 0x88#8 = ⟨.dey, .implied, 2, false, true⟩ := by rfl
@[simp] theorem decodeSpec_8A : decodeSpec 0x8A#8 = ⟨.txa, .implied, 2, false, true⟩ := by rfl
@[simp] theorem decodeSpec_8C : decodeSpec 0x8C#8 = ⟨.sty, .absolute, 4, false, true⟩ := by rfl
@[simp] theorem decodeSpec_8D : decodeSpec 0x8D#8 = ⟨.sta, .absolute, 4, false, true⟩ := by rfl
@[simp] theorem decodeSpec_8E : decodeSpec 0x8E#8 = ⟨.stx, .absolute, 4, false, true⟩ := by rfl
@[simp] theorem decodeSpec_90 : decodeSpec 0x90#8 = ⟨.bcc, .relative, 2, false, true⟩ := by rfl
@[simp] theorem decodeSpec_91 : decodeSpec 0x91#8 = ⟨.sta, .indirectY, 6, false, true⟩ := by rfl
@[simp] theorem decodeSpec_94 : decodeSpec 0x94#8 = ⟨.sty, .zeroPageX, 4, false, true⟩ := by rfl
@[simp] theorem decodeSpec_95 : decodeSpec 0x95#8 = ⟨.sta, .zeroPageX, 4, false, true⟩ := by rfl
@[simp] theorem decodeSpec_96 : decodeSpec 0x96#8 = ⟨.stx, .zeroPageY, 4, false, true⟩ := by rfl
@[simp] theorem decodeSpec_98 : decodeSpec 0x98#8 = ⟨.tya, .implied, 2, false, true⟩ := by rfl
@[simp] theorem decodeSpec_99 : decodeSpec 0x99#8 = ⟨.sta, .absoluteY, 5, false, true⟩ := by rfl
@[simp] theorem decodeSpec_9A : decodeSpec 0x9A#8 = ⟨.txs, .implied, 2, false, true⟩ := by rfl
@[simp] theorem decodeSpec_9D : decodeSpec 0x9D#8 = ⟨.sta, .absoluteX, 5, false, true⟩ := by rfl
@[simp] theorem decodeSpec_A0 : decodeSpec 0xA0#8 = ⟨.ldy, .immediate, 2, false, true⟩ := by rfl
@[simp] theorem decodeSpec_A1 : decodeSpec 0xA1#8 = ⟨.lda, .indirectX, 6, false, true⟩ := by rfl
@[simp] theorem decodeSpec_A2 : decodeSpec 0xA2#8 = ⟨.ldx, .immediate, 2, false, true⟩ := by rfl
@[simp] theorem decodeSpec_A4 : decodeSpec 0xA4#8 = ⟨.ldy, .zeroPage, 3, false, true⟩ := by rfl
@[simp] theorem decodeSpec_A5 : decodeSpec 0xA5#8 = ⟨.lda, .zeroPage, 3, false, true⟩ := by rfl
@[simp] theorem decodeSpec_A6 : decodeSpec 0xA6#8 = ⟨.ldx, .zeroPage, 3, false, true⟩ := by rfl
@[simp] theorem decodeSpec_A8 : decodeSpec 0xA8#8 = ⟨.tay, .implied, 2, false, true⟩ := by rfl
@[simp] theorem decodeSpec_A9 : decodeSpec 0xA9#8 = ⟨.lda, .immediate, 2, false, true⟩ := by rfl
@[simp] theorem decodeSpec_AA : decodeSpec 0xAA#8 = ⟨.tax, .implied, 2, false, true⟩ := by rfl
@[simp] theorem decodeSpec_AC : decodeSpec 0xAC#8 = ⟨.ldy, .absolute, 4, false, true⟩ := by rfl
@[simp] theorem decodeSpec_AD : decodeSpec 0xAD#8 = ⟨.lda, .absolute, 4, false, true⟩ := by rfl
@[simp] theorem decodeSpec_AE : decodeSpec 0xAE#8 = ⟨.ldx, .absolute, 4, false, true⟩ := by rfl
@[simp] theorem decodeSpec_B0 : decodeSpec 0xB0#8 = ⟨.bcs, .relative, 2, false, true⟩ := by rfl
@[simp] theorem decodeSpec_B1 : decodeSpec 0xB1#8 = ⟨.lda, .indirectY, 5, true, true⟩ := by rfl
@[simp] theorem decodeSpec_B4 : decodeSpec 0xB4#8 = ⟨.ldy, .zeroPageX, 4, false, true⟩ := by rfl
@[simp] theorem decodeSpec_B5 : decodeSpec 0xB5#8 = ⟨.lda, .zeroPageX, 4, false, true⟩ := by rfl
@[simp] theorem decodeSpec_B6 : decodeSpec 0xB6#8 = ⟨.ldx, .zeroPageY, 4, false, true⟩ := by rfl
@[simp] theorem decodeSpec_B8 : decodeSpec 0xB8#8 = ⟨.clv, .implied, 2, false, true⟩ := by rfl
@[simp] theorem decodeSpec_B9 : decodeSpec 0xB9#8 = ⟨.lda, .absoluteY, 4, true, true⟩ := by rfl
@[simp] theorem decodeSpec_BA : decodeSpec 0xBA#8 = ⟨.tsx, .implied, 2, false, true⟩ := by rfl
@[simp] theorem decodeSpec_BC : decodeSpec 0xBC#8 = ⟨.ldy, .absoluteX, 4, true, true⟩ := by rfl
@[simp] theorem decodeSpec_BD : decodeSpec 0xBD#8 = ⟨.lda, .absoluteX, 4, true, true⟩ := by rfl
@[simp] theorem decodeSpec_BE : decodeSpec 0xBE#8 = ⟨.ldx, .absoluteY, 4, true, true⟩ := by rfl
@[simp] theorem decodeSpec_C0 : decodeSpec 0xC0#8 = ⟨.cpy, .immediate, 2, false, true⟩ := by rfl
@[simp] theorem decodeSpec_C1 : decodeSpec 0xC1#8 = ⟨.cmp, .indirectX, 6, false, true⟩ := by rfl
@[simp] theorem decodeSpec_C4 : decodeSpec 0xC4#8 = ⟨.cpy, .zeroPage, 3, false, true⟩ := by rfl
@[simp] theorem decodeSpec_C5 : decodeSpec 0xC5#8 = ⟨.cmp, .zeroPage, 3, false, true⟩ := by rfl
@[simp] theorem decodeSpec_C6 : decodeSpec 0xC6#8 = ⟨.dec, .zeroPage, 5, false, true⟩ := by rfl
@[simp] theorem decodeSpec_C8 : decodeSpec 0xC8#8 = ⟨.iny, .implied, 2, false, true⟩ := by rfl
@[simp] theorem decodeSpec_C9 : decodeSpec 0xC9#8 = ⟨.cmp, .immediate, 2, false, true⟩ := by rfl
@[simp] theorem decodeSpec_CA : decodeSpec 0xCA#8 = ⟨.dex, .implied, 2, false, true⟩ := by rfl
@[simp] theorem decodeSpec_CC : decodeSpec 0xCC#8 = ⟨.cpy, .absolute, 4, false, true⟩ := by rfl
@[simp] theorem decodeSpec_CD : decodeSpec 0xCD#8 = ⟨.cmp, .absolute, 4, false, true⟩ := by rfl
@[simp] theorem decodeSpec_CE : decodeSpec 0xCE#8 = ⟨.dec, .absolute, 6, false, true⟩ := by rfl
@[simp] theorem decodeSpec_D0 : decodeSpec 0xD0#8 = ⟨.bne, .relative, 2, false, true⟩ := by rfl
@[simp] theorem decodeSpec_D1 : decodeSpec 0xD1#8 = ⟨.cmp, .indirectY, 5, true, true⟩ := by rfl
@[simp] theorem decodeSpec_D5 : decodeSpec 0xD5#8 = ⟨.cmp, .zeroPageX, 4, false, true⟩ := by rfl
@[simp] theorem decodeSpec_D6 : decodeSpec 0xD6#8 = ⟨.dec, .zeroPageX, 6, false, true⟩ := by rfl
@[simp] theorem decodeSpec_D8 : decodeSpec 0xD8#8 = ⟨.cld, .implied, 2, false, true⟩ := by rfl
@[simp] theorem decodeSpec_D9 : decodeSpec 0xD9#8 = ⟨.cmp, .absoluteY, 4, true, true⟩ := by rfl
@[simp] theorem decodeSpec_DD : decodeSpec 0xDD#8 = ⟨.cmp, .absoluteX, 4, true, true⟩ := by rfl
@[simp] theorem decodeSpec_DE : decodeSpec 0xDE#8 = ⟨.dec, .absoluteX, 7, false, true⟩ := by rfl
@[simp] theorem decodeSpec_E0 : decodeSpec 0xE0#8 = ⟨.cpx, .immediate, 2, false, true⟩ := by rfl
@[simp] theorem decodeSpec_E1 : decodeSpec 0xE1#8 = ⟨.sbc, .indirectX, 6, false, true⟩ := by rfl
@[simp] theorem decodeSpec_E4 : decodeSpec 0xE4#8 = ⟨.cpx, .zeroPage, 3, false, true⟩ := by rfl
@[simp] theorem decodeSpec_E5 : decodeSpec 0xE5#8 = ⟨.sbc, .zeroPage, 3, false, true⟩ := by rfl
@[simp] theorem decodeSpec_E6 : decodeSpec 0xE6#8 = ⟨.inc, .zeroPage, 5, false, true⟩ := by rfl
@[simp] theorem decodeSpec_E8 : decodeSpec 0xE8#8 = ⟨.inx, .implied, 2, false, true⟩ := by rfl
@[simp] theorem decodeSpec_E9 : decodeSpec 0xE9#8 = ⟨.sbc, .immediate, 2, false, true⟩ := by rfl
@[simp] theorem decodeSpec_EA : decodeSpec 0xEA#8 = ⟨.nop, .implied, 2, false, true⟩ := by rfl
@[simp] theorem decodeSpec_EC : decodeSpec 0xEC#8 = ⟨.cpx, .absolute, 4, false, true⟩ := by rfl
@[simp] theorem decodeSpec_ED : decodeSpec 0xED#8 = ⟨.sbc, .absolute, 4, false, true⟩ := by rfl
@[simp] theorem decodeSpec_EE : decodeSpec 0xEE#8 = ⟨.inc, .absolute, 6, false, true⟩ := by rfl
@[simp] theorem decodeSpec_F0 : decodeSpec 0xF0#8 = ⟨.beq, .relative, 2, false, true⟩ := by rfl
@[simp] theorem decodeSpec_F1 : decodeSpec 0xF1#8 = ⟨.sbc, .indirectY, 5, true, true⟩ := by rfl
@[simp] theorem decodeSpec_F5 : decodeSpec 0xF5#8 = ⟨.sbc, .zeroPageX, 4, false, true⟩ := by rfl
@[simp] theorem decodeSpec_F6 : decodeSpec 0xF6#8 = ⟨.inc, .zeroPageX, 6, false, true⟩ := by rfl
@[simp] theorem decodeSpec_F8 : decodeSpec 0xF8#8 = ⟨.sed, .implied, 2, false, true⟩ := by rfl
@[simp] theorem decodeSpec_F9 : decodeSpec 0xF9#8 = ⟨.sbc, .absoluteY, 4, true, true⟩ := by rfl
@[simp] theorem decodeSpec_FD : decodeSpec 0xFD#8 = ⟨.sbc, .absoluteX, 4, true, true⟩ := by rfl
@[simp] theorem decodeSpec_FE : decodeSpec 0xFE#8 = ⟨.inc, .absoluteX, 7, false, true⟩ := by rfl

@[simp] theorem formatOf_00 : formatOf 0x00#8 = .f1 .brk := by rfl
@[simp] theorem formatOf_01 : formatOf 0x01#8 = .f2 .oraIndirectX := by rfl
@[simp] theorem formatOf_05 : formatOf 0x05#8 = .f2 .oraZeroPage := by rfl
@[simp] theorem formatOf_06 : formatOf 0x06#8 = .f2 .aslZeroPage := by rfl
@[simp] theorem formatOf_08 : formatOf 0x08#8 = .f1 .php := by rfl
@[simp] theorem formatOf_09 : formatOf 0x09#8 = .f2 .oraImmediate := by rfl
@[simp] theorem formatOf_0A : formatOf 0x0A#8 = .f1 .aslAccumulator := by rfl
@[simp] theorem formatOf_0D : formatOf 0x0D#8 = .f3 .oraAbsolute := by rfl
@[simp] theorem formatOf_0E : formatOf 0x0E#8 = .f3 .aslAbsolute := by rfl
@[simp] theorem formatOf_10 : formatOf 0x10#8 = .f2 .bpl := by rfl
@[simp] theorem formatOf_11 : formatOf 0x11#8 = .f2 .oraIndirectY := by rfl
@[simp] theorem formatOf_15 : formatOf 0x15#8 = .f2 .oraZeroPageX := by rfl
@[simp] theorem formatOf_16 : formatOf 0x16#8 = .f2 .aslZeroPageX := by rfl
@[simp] theorem formatOf_18 : formatOf 0x18#8 = .f1 .clc := by rfl
@[simp] theorem formatOf_19 : formatOf 0x19#8 = .f3 .oraAbsoluteY := by rfl
@[simp] theorem formatOf_1D : formatOf 0x1D#8 = .f3 .oraAbsoluteX := by rfl
@[simp] theorem formatOf_1E : formatOf 0x1E#8 = .f3 .aslAbsoluteX := by rfl
@[simp] theorem formatOf_20 : formatOf 0x20#8 = .f3 .jsr := by rfl
@[simp] theorem formatOf_21 : formatOf 0x21#8 = .f2 .andIndirectX := by rfl
@[simp] theorem formatOf_24 : formatOf 0x24#8 = .f2 .bitZeroPage := by rfl
@[simp] theorem formatOf_25 : formatOf 0x25#8 = .f2 .andZeroPage := by rfl
@[simp] theorem formatOf_26 : formatOf 0x26#8 = .f2 .rolZeroPage := by rfl
@[simp] theorem formatOf_28 : formatOf 0x28#8 = .f1 .plp := by rfl
@[simp] theorem formatOf_29 : formatOf 0x29#8 = .f2 .andImmediate := by rfl
@[simp] theorem formatOf_2A : formatOf 0x2A#8 = .f1 .rolAccumulator := by rfl
@[simp] theorem formatOf_2C : formatOf 0x2C#8 = .f3 .bitAbsolute := by rfl
@[simp] theorem formatOf_2D : formatOf 0x2D#8 = .f3 .andAbsolute := by rfl
@[simp] theorem formatOf_2E : formatOf 0x2E#8 = .f3 .rolAbsolute := by rfl
@[simp] theorem formatOf_30 : formatOf 0x30#8 = .f2 .bmi := by rfl
@[simp] theorem formatOf_31 : formatOf 0x31#8 = .f2 .andIndirectY := by rfl
@[simp] theorem formatOf_35 : formatOf 0x35#8 = .f2 .andZeroPageX := by rfl
@[simp] theorem formatOf_36 : formatOf 0x36#8 = .f2 .rolZeroPageX := by rfl
@[simp] theorem formatOf_38 : formatOf 0x38#8 = .f1 .sec := by rfl
@[simp] theorem formatOf_39 : formatOf 0x39#8 = .f3 .andAbsoluteY := by rfl
@[simp] theorem formatOf_3D : formatOf 0x3D#8 = .f3 .andAbsoluteX := by rfl
@[simp] theorem formatOf_3E : formatOf 0x3E#8 = .f3 .rolAbsoluteX := by rfl
@[simp] theorem formatOf_40 : formatOf 0x40#8 = .f1 .rti := by rfl
@[simp] theorem formatOf_41 : formatOf 0x41#8 = .f2 .eorIndirectX := by rfl
@[simp] theorem formatOf_45 : formatOf 0x45#8 = .f2 .eorZeroPage := by rfl
@[simp] theorem formatOf_46 : formatOf 0x46#8 = .f2 .lsrZeroPage := by rfl
@[simp] theorem formatOf_48 : formatOf 0x48#8 = .f1 .pha := by rfl
@[simp] theorem formatOf_49 : formatOf 0x49#8 = .f2 .eorImmediate := by rfl
@[simp] theorem formatOf_4A : formatOf 0x4A#8 = .f1 .lsrAccumulator := by rfl
@[simp] theorem formatOf_4C : formatOf 0x4C#8 = .f3 .jmpAbsolute := by rfl
@[simp] theorem formatOf_4D : formatOf 0x4D#8 = .f3 .eorAbsolute := by rfl
@[simp] theorem formatOf_4E : formatOf 0x4E#8 = .f3 .lsrAbsolute := by rfl
@[simp] theorem formatOf_50 : formatOf 0x50#8 = .f2 .bvc := by rfl
@[simp] theorem formatOf_51 : formatOf 0x51#8 = .f2 .eorIndirectY := by rfl
@[simp] theorem formatOf_55 : formatOf 0x55#8 = .f2 .eorZeroPageX := by rfl
@[simp] theorem formatOf_56 : formatOf 0x56#8 = .f2 .lsrZeroPageX := by rfl
@[simp] theorem formatOf_58 : formatOf 0x58#8 = .f1 .cli := by rfl
@[simp] theorem formatOf_59 : formatOf 0x59#8 = .f3 .eorAbsoluteY := by rfl
@[simp] theorem formatOf_5D : formatOf 0x5D#8 = .f3 .eorAbsoluteX := by rfl
@[simp] theorem formatOf_5E : formatOf 0x5E#8 = .f3 .lsrAbsoluteX := by rfl
@[simp] theorem formatOf_60 : formatOf 0x60#8 = .f1 .rts := by rfl
@[simp] theorem formatOf_61 : formatOf 0x61#8 = .f2 .adcIndirectX := by rfl
@[simp] theorem formatOf_65 : formatOf 0x65#8 = .f2 .adcZeroPage := by rfl
@[simp] theorem formatOf_66 : formatOf 0x66#8 = .f2 .rorZeroPage := by rfl
@[simp] theorem formatOf_68 : formatOf 0x68#8 = .f1 .pla := by rfl
@[simp] theorem formatOf_69 : formatOf 0x69#8 = .f2 .adcImmediate := by rfl
@[simp] theorem formatOf_6A : formatOf 0x6A#8 = .f1 .rorAccumulator := by rfl
@[simp] theorem formatOf_6C : formatOf 0x6C#8 = .f3 .jmpIndirect := by rfl
@[simp] theorem formatOf_6D : formatOf 0x6D#8 = .f3 .adcAbsolute := by rfl
@[simp] theorem formatOf_6E : formatOf 0x6E#8 = .f3 .rorAbsolute := by rfl
@[simp] theorem formatOf_70 : formatOf 0x70#8 = .f2 .bvs := by rfl
@[simp] theorem formatOf_71 : formatOf 0x71#8 = .f2 .adcIndirectY := by rfl
@[simp] theorem formatOf_75 : formatOf 0x75#8 = .f2 .adcZeroPageX := by rfl
@[simp] theorem formatOf_76 : formatOf 0x76#8 = .f2 .rorZeroPageX := by rfl
@[simp] theorem formatOf_78 : formatOf 0x78#8 = .f1 .sei := by rfl
@[simp] theorem formatOf_79 : formatOf 0x79#8 = .f3 .adcAbsoluteY := by rfl
@[simp] theorem formatOf_7D : formatOf 0x7D#8 = .f3 .adcAbsoluteX := by rfl
@[simp] theorem formatOf_7E : formatOf 0x7E#8 = .f3 .rorAbsoluteX := by rfl
@[simp] theorem formatOf_81 : formatOf 0x81#8 = .f2 .staIndirectX := by rfl
@[simp] theorem formatOf_84 : formatOf 0x84#8 = .f2 .styZeroPage := by rfl
@[simp] theorem formatOf_85 : formatOf 0x85#8 = .f2 .staZeroPage := by rfl
@[simp] theorem formatOf_86 : formatOf 0x86#8 = .f2 .stxZeroPage := by rfl
@[simp] theorem formatOf_88 : formatOf 0x88#8 = .f1 .dey := by rfl
@[simp] theorem formatOf_8A : formatOf 0x8A#8 = .f1 .txa := by rfl
@[simp] theorem formatOf_8C : formatOf 0x8C#8 = .f3 .styAbsolute := by rfl
@[simp] theorem formatOf_8D : formatOf 0x8D#8 = .f3 .staAbsolute := by rfl
@[simp] theorem formatOf_8E : formatOf 0x8E#8 = .f3 .stxAbsolute := by rfl
@[simp] theorem formatOf_90 : formatOf 0x90#8 = .f2 .bcc := by rfl
@[simp] theorem formatOf_91 : formatOf 0x91#8 = .f2 .staIndirectY := by rfl
@[simp] theorem formatOf_94 : formatOf 0x94#8 = .f2 .styZeroPageX := by rfl
@[simp] theorem formatOf_95 : formatOf 0x95#8 = .f2 .staZeroPageX := by rfl
@[simp] theorem formatOf_96 : formatOf 0x96#8 = .f2 .stxZeroPageY := by rfl
@[simp] theorem formatOf_98 : formatOf 0x98#8 = .f1 .tya := by rfl
@[simp] theorem formatOf_99 : formatOf 0x99#8 = .f3 .staAbsoluteY := by rfl
@[simp] theorem formatOf_9A : formatOf 0x9A#8 = .f1 .txs := by rfl
@[simp] theorem formatOf_9D : formatOf 0x9D#8 = .f3 .staAbsoluteX := by rfl
@[simp] theorem formatOf_A0 : formatOf 0xA0#8 = .f2 .ldyImmediate := by rfl
@[simp] theorem formatOf_A1 : formatOf 0xA1#8 = .f2 .ldaIndirectX := by rfl
@[simp] theorem formatOf_A2 : formatOf 0xA2#8 = .f2 .ldxImmediate := by rfl
@[simp] theorem formatOf_A4 : formatOf 0xA4#8 = .f2 .ldyZeroPage := by rfl
@[simp] theorem formatOf_A5 : formatOf 0xA5#8 = .f2 .ldaZeroPage := by rfl
@[simp] theorem formatOf_A6 : formatOf 0xA6#8 = .f2 .ldxZeroPage := by rfl
@[simp] theorem formatOf_A8 : formatOf 0xA8#8 = .f1 .tay := by rfl
@[simp] theorem formatOf_A9 : formatOf 0xA9#8 = .f2 .ldaImmediate := by rfl
@[simp] theorem formatOf_AA : formatOf 0xAA#8 = .f1 .tax := by rfl
@[simp] theorem formatOf_AC : formatOf 0xAC#8 = .f3 .ldyAbsolute := by rfl
@[simp] theorem formatOf_AD : formatOf 0xAD#8 = .f3 .ldaAbsolute := by rfl
@[simp] theorem formatOf_AE : formatOf 0xAE#8 = .f3 .ldxAbsolute := by rfl
@[simp] theorem formatOf_B0 : formatOf 0xB0#8 = .f2 .bcs := by rfl
@[simp] theorem formatOf_B1 : formatOf 0xB1#8 = .f2 .ldaIndirectY := by rfl
@[simp] theorem formatOf_B4 : formatOf 0xB4#8 = .f2 .ldyZeroPageX := by rfl
@[simp] theorem formatOf_B5 : formatOf 0xB5#8 = .f2 .ldaZeroPageX := by rfl
@[simp] theorem formatOf_B6 : formatOf 0xB6#8 = .f2 .ldxZeroPageY := by rfl
@[simp] theorem formatOf_B8 : formatOf 0xB8#8 = .f1 .clv := by rfl
@[simp] theorem formatOf_B9 : formatOf 0xB9#8 = .f3 .ldaAbsoluteY := by rfl
@[simp] theorem formatOf_BA : formatOf 0xBA#8 = .f1 .tsx := by rfl
@[simp] theorem formatOf_BC : formatOf 0xBC#8 = .f3 .ldyAbsoluteX := by rfl
@[simp] theorem formatOf_BD : formatOf 0xBD#8 = .f3 .ldaAbsoluteX := by rfl
@[simp] theorem formatOf_BE : formatOf 0xBE#8 = .f3 .ldxAbsoluteY := by rfl
@[simp] theorem formatOf_C0 : formatOf 0xC0#8 = .f2 .cpyImmediate := by rfl
@[simp] theorem formatOf_C1 : formatOf 0xC1#8 = .f2 .cmpIndirectX := by rfl
@[simp] theorem formatOf_C4 : formatOf 0xC4#8 = .f2 .cpyZeroPage := by rfl
@[simp] theorem formatOf_C5 : formatOf 0xC5#8 = .f2 .cmpZeroPage := by rfl
@[simp] theorem formatOf_C6 : formatOf 0xC6#8 = .f2 .decZeroPage := by rfl
@[simp] theorem formatOf_C8 : formatOf 0xC8#8 = .f1 .iny := by rfl
@[simp] theorem formatOf_C9 : formatOf 0xC9#8 = .f2 .cmpImmediate := by rfl
@[simp] theorem formatOf_CA : formatOf 0xCA#8 = .f1 .dex := by rfl
@[simp] theorem formatOf_CC : formatOf 0xCC#8 = .f3 .cpyAbsolute := by rfl
@[simp] theorem formatOf_CD : formatOf 0xCD#8 = .f3 .cmpAbsolute := by rfl
@[simp] theorem formatOf_CE : formatOf 0xCE#8 = .f3 .decAbsolute := by rfl
@[simp] theorem formatOf_D0 : formatOf 0xD0#8 = .f2 .bne := by rfl
@[simp] theorem formatOf_D1 : formatOf 0xD1#8 = .f2 .cmpIndirectY := by rfl
@[simp] theorem formatOf_D5 : formatOf 0xD5#8 = .f2 .cmpZeroPageX := by rfl
@[simp] theorem formatOf_D6 : formatOf 0xD6#8 = .f2 .decZeroPageX := by rfl
@[simp] theorem formatOf_D8 : formatOf 0xD8#8 = .f1 .cld := by rfl
@[simp] theorem formatOf_D9 : formatOf 0xD9#8 = .f3 .cmpAbsoluteY := by rfl
@[simp] theorem formatOf_DD : formatOf 0xDD#8 = .f3 .cmpAbsoluteX := by rfl
@[simp] theorem formatOf_DE : formatOf 0xDE#8 = .f3 .decAbsoluteX := by rfl
@[simp] theorem formatOf_E0 : formatOf 0xE0#8 = .f2 .cpxImmediate := by rfl
@[simp] theorem formatOf_E1 : formatOf 0xE1#8 = .f2 .sbcIndirectX := by rfl
@[simp] theorem formatOf_E4 : formatOf 0xE4#8 = .f2 .cpxZeroPage := by rfl
@[simp] theorem formatOf_E5 : formatOf 0xE5#8 = .f2 .sbcZeroPage := by rfl
@[simp] theorem formatOf_E6 : formatOf 0xE6#8 = .f2 .incZeroPage := by rfl
@[simp] theorem formatOf_E8 : formatOf 0xE8#8 = .f1 .inx := by rfl
@[simp] theorem formatOf_E9 : formatOf 0xE9#8 = .f2 .sbcImmediate := by rfl
@[simp] theorem formatOf_EA : formatOf 0xEA#8 = .f1 .nop := by rfl
@[simp] theorem formatOf_EC : formatOf 0xEC#8 = .f3 .cpxAbsolute := by rfl
@[simp] theorem formatOf_ED : formatOf 0xED#8 = .f3 .sbcAbsolute := by rfl
@[simp] theorem formatOf_EE : formatOf 0xEE#8 = .f3 .incAbsolute := by rfl
@[simp] theorem formatOf_F0 : formatOf 0xF0#8 = .f2 .beq := by rfl
@[simp] theorem formatOf_F1 : formatOf 0xF1#8 = .f2 .sbcIndirectY := by rfl
@[simp] theorem formatOf_F5 : formatOf 0xF5#8 = .f2 .sbcZeroPageX := by rfl
@[simp] theorem formatOf_F6 : formatOf 0xF6#8 = .f2 .incZeroPageX := by rfl
@[simp] theorem formatOf_F8 : formatOf 0xF8#8 = .f1 .sed := by rfl
@[simp] theorem formatOf_F9 : formatOf 0xF9#8 = .f3 .sbcAbsoluteY := by rfl
@[simp] theorem formatOf_FD : formatOf 0xFD#8 = .f3 .sbcAbsoluteX := by rfl
@[simp] theorem formatOf_FE : formatOf 0xFE#8 = .f3 .incAbsoluteX := by rfl

@[simp] theorem spec_ldaImmediate (nn : Byte) : Instr.spec (.ldaImmediate nn) = ⟨.lda, .immediate, 2, false, true⟩ :=
  decodeSpec_A9
@[simp] theorem spec_ldaZeroPage (nn : Byte) : Instr.spec (.ldaZeroPage nn) = ⟨.lda, .zeroPage, 3, false, true⟩ :=
  decodeSpec_A5
@[simp] theorem spec_ldaZeroPageX (nn : Byte) : Instr.spec (.ldaZeroPageX nn) = ⟨.lda, .zeroPageX, 4, false, true⟩ :=
  decodeSpec_B5
@[simp] theorem spec_ldaAbsolute (hhll : Word) : Instr.spec (.ldaAbsolute hhll) = ⟨.lda, .absolute, 4, false, true⟩ :=
  decodeSpec_AD
@[simp] theorem spec_ldaAbsoluteX (hhll : Word) : Instr.spec (.ldaAbsoluteX hhll) = ⟨.lda, .absoluteX, 4, true, true⟩ :=
  decodeSpec_BD
@[simp] theorem spec_ldaAbsoluteY (hhll : Word) : Instr.spec (.ldaAbsoluteY hhll) = ⟨.lda, .absoluteY, 4, true, true⟩ :=
  decodeSpec_B9
@[simp] theorem spec_ldaIndirectX (nn : Byte) : Instr.spec (.ldaIndirectX nn) = ⟨.lda, .indirectX, 6, false, true⟩ :=
  decodeSpec_A1
@[simp] theorem spec_ldaIndirectY (nn : Byte) : Instr.spec (.ldaIndirectY nn) = ⟨.lda, .indirectY, 5, true, true⟩ :=
  decodeSpec_B1
@[simp] theorem spec_ldxImmediate (nn : Byte) : Instr.spec (.ldxImmediate nn) = ⟨.ldx, .immediate, 2, false, true⟩ :=
  decodeSpec_A2
@[simp] theorem spec_ldxZeroPage (nn : Byte) : Instr.spec (.ldxZeroPage nn) = ⟨.ldx, .zeroPage, 3, false, true⟩ :=
  decodeSpec_A6
@[simp] theorem spec_ldxZeroPageY (nn : Byte) : Instr.spec (.ldxZeroPageY nn) = ⟨.ldx, .zeroPageY, 4, false, true⟩ :=
  decodeSpec_B6
@[simp] theorem spec_ldxAbsolute (hhll : Word) : Instr.spec (.ldxAbsolute hhll) = ⟨.ldx, .absolute, 4, false, true⟩ :=
  decodeSpec_AE
@[simp] theorem spec_ldxAbsoluteY (hhll : Word) : Instr.spec (.ldxAbsoluteY hhll) = ⟨.ldx, .absoluteY, 4, true, true⟩ :=
  decodeSpec_BE
@[simp] theorem spec_ldyImmediate (nn : Byte) : Instr.spec (.ldyImmediate nn) = ⟨.ldy, .immediate, 2, false, true⟩ :=
  decodeSpec_A0
@[simp] theorem spec_ldyZeroPage (nn : Byte) : Instr.spec (.ldyZeroPage nn) = ⟨.ldy, .zeroPage, 3, false, true⟩ :=
  decodeSpec_A4
@[simp] theorem spec_ldyZeroPageX (nn : Byte) : Instr.spec (.ldyZeroPageX nn) = ⟨.ldy, .zeroPageX, 4, false, true⟩ :=
  decodeSpec_B4
@[simp] theorem spec_ldyAbsolute (hhll : Word) : Instr.spec (.ldyAbsolute hhll) = ⟨.ldy, .absolute, 4, false, true⟩ :=
  decodeSpec_AC
@[simp] theorem spec_ldyAbsoluteX (hhll : Word) : Instr.spec (.ldyAbsoluteX hhll) = ⟨.ldy, .absoluteX, 4, true, true⟩ :=
  decodeSpec_BC
@[simp] theorem spec_staZeroPage (nn : Byte) : Instr.spec (.staZeroPage nn) = ⟨.sta, .zeroPage, 3, false, true⟩ :=
  decodeSpec_85
@[simp] theorem spec_staZeroPageX (nn : Byte) : Instr.spec (.staZeroPageX nn) = ⟨.sta, .zeroPageX, 4, false, true⟩ :=
  decodeSpec_95
@[simp] theorem spec_staAbsolute (hhll : Word) : Instr.spec (.staAbsolute hhll) = ⟨.sta, .absolute, 4, false, true⟩ :=
  decodeSpec_8D
@[simp] theorem spec_staAbsoluteX (hhll : Word) : Instr.spec (.staAbsoluteX hhll) = ⟨.sta, .absoluteX, 5, false, true⟩ :=
  decodeSpec_9D
@[simp] theorem spec_staAbsoluteY (hhll : Word) : Instr.spec (.staAbsoluteY hhll) = ⟨.sta, .absoluteY, 5, false, true⟩ :=
  decodeSpec_99
@[simp] theorem spec_staIndirectX (nn : Byte) : Instr.spec (.staIndirectX nn) = ⟨.sta, .indirectX, 6, false, true⟩ :=
  decodeSpec_81
@[simp] theorem spec_staIndirectY (nn : Byte) : Instr.spec (.staIndirectY nn) = ⟨.sta, .indirectY, 6, false, true⟩ :=
  decodeSpec_91
@[simp] theorem spec_stxZeroPage (nn : Byte) : Instr.spec (.stxZeroPage nn) = ⟨.stx, .zeroPage, 3, false, true⟩ :=
  decodeSpec_86
@[simp] theorem spec_stxZeroPageY (nn : Byte) : Instr.spec (.stxZeroPageY nn) = ⟨.stx, .zeroPageY, 4, false, true⟩ :=
  decodeSpec_96
@[simp] theorem spec_stxAbsolute (hhll : Word) : Instr.spec (.stxAbsolute hhll) = ⟨.stx, .absolute, 4, false, true⟩ :=
  decodeSpec_8E
@[simp] theorem spec_styZeroPage (nn : Byte) : Instr.spec (.styZeroPage nn) = ⟨.sty, .zeroPage, 3, false, true⟩ :=
  decodeSpec_84
@[simp] theorem spec_styZeroPageX (nn : Byte) : Instr.spec (.styZeroPageX nn) = ⟨.sty, .zeroPageX, 4, false, true⟩ :=
  decodeSpec_94
@[simp] theorem spec_styAbsolute (hhll : Word) : Instr.spec (.styAbsolute hhll) = ⟨.sty, .absolute, 4, false, true⟩ :=
  decodeSpec_8C
@[simp] theorem spec_tax : Instr.spec (.tax) = ⟨.tax, .implied, 2, false, true⟩ :=
  decodeSpec_AA
@[simp] theorem spec_tay : Instr.spec (.tay) = ⟨.tay, .implied, 2, false, true⟩ :=
  decodeSpec_A8
@[simp] theorem spec_txa : Instr.spec (.txa) = ⟨.txa, .implied, 2, false, true⟩ :=
  decodeSpec_8A
@[simp] theorem spec_tya : Instr.spec (.tya) = ⟨.tya, .implied, 2, false, true⟩ :=
  decodeSpec_98
@[simp] theorem spec_tsx : Instr.spec (.tsx) = ⟨.tsx, .implied, 2, false, true⟩ :=
  decodeSpec_BA
@[simp] theorem spec_txs : Instr.spec (.txs) = ⟨.txs, .implied, 2, false, true⟩ :=
  decodeSpec_9A
@[simp] theorem spec_adcImmediate (nn : Byte) : Instr.spec (.adcImmediate nn) = ⟨.adc, .immediate, 2, false, true⟩ :=
  decodeSpec_69
@[simp] theorem spec_adcZeroPage (nn : Byte) : Instr.spec (.adcZeroPage nn) = ⟨.adc, .zeroPage, 3, false, true⟩ :=
  decodeSpec_65
@[simp] theorem spec_adcZeroPageX (nn : Byte) : Instr.spec (.adcZeroPageX nn) = ⟨.adc, .zeroPageX, 4, false, true⟩ :=
  decodeSpec_75
@[simp] theorem spec_adcAbsolute (hhll : Word) : Instr.spec (.adcAbsolute hhll) = ⟨.adc, .absolute, 4, false, true⟩ :=
  decodeSpec_6D
@[simp] theorem spec_adcAbsoluteX (hhll : Word) : Instr.spec (.adcAbsoluteX hhll) = ⟨.adc, .absoluteX, 4, true, true⟩ :=
  decodeSpec_7D
@[simp] theorem spec_adcAbsoluteY (hhll : Word) : Instr.spec (.adcAbsoluteY hhll) = ⟨.adc, .absoluteY, 4, true, true⟩ :=
  decodeSpec_79
@[simp] theorem spec_adcIndirectX (nn : Byte) : Instr.spec (.adcIndirectX nn) = ⟨.adc, .indirectX, 6, false, true⟩ :=
  decodeSpec_61
@[simp] theorem spec_adcIndirectY (nn : Byte) : Instr.spec (.adcIndirectY nn) = ⟨.adc, .indirectY, 5, true, true⟩ :=
  decodeSpec_71
@[simp] theorem spec_sbcImmediate (nn : Byte) : Instr.spec (.sbcImmediate nn) = ⟨.sbc, .immediate, 2, false, true⟩ :=
  decodeSpec_E9
@[simp] theorem spec_sbcZeroPage (nn : Byte) : Instr.spec (.sbcZeroPage nn) = ⟨.sbc, .zeroPage, 3, false, true⟩ :=
  decodeSpec_E5
@[simp] theorem spec_sbcZeroPageX (nn : Byte) : Instr.spec (.sbcZeroPageX nn) = ⟨.sbc, .zeroPageX, 4, false, true⟩ :=
  decodeSpec_F5
@[simp] theorem spec_sbcAbsolute (hhll : Word) : Instr.spec (.sbcAbsolute hhll) = ⟨.sbc, .absolute, 4, false, true⟩ :=
  decodeSpec_ED
@[simp] theorem spec_sbcAbsoluteX (hhll : Word) : Instr.spec (.sbcAbsoluteX hhll) = ⟨.sbc, .absoluteX, 4, true, true⟩ :=
  decodeSpec_FD
@[simp] theorem spec_sbcAbsoluteY (hhll : Word) : Instr.spec (.sbcAbsoluteY hhll) = ⟨.sbc, .absoluteY, 4, true, true⟩ :=
  decodeSpec_F9
@[simp] theorem spec_sbcIndirectX (nn : Byte) : Instr.spec (.sbcIndirectX nn) = ⟨.sbc, .indirectX, 6, false, true⟩ :=
  decodeSpec_E1
@[simp] theorem spec_sbcIndirectY (nn : Byte) : Instr.spec (.sbcIndirectY nn) = ⟨.sbc, .indirectY, 5, true, true⟩ :=
  decodeSpec_F1
@[simp] theorem spec_incZeroPage (nn : Byte) : Instr.spec (.incZeroPage nn) = ⟨.inc, .zeroPage, 5, false, true⟩ :=
  decodeSpec_E6
@[simp] theorem spec_incZeroPageX (nn : Byte) : Instr.spec (.incZeroPageX nn) = ⟨.inc, .zeroPageX, 6, false, true⟩ :=
  decodeSpec_F6
@[simp] theorem spec_incAbsolute (hhll : Word) : Instr.spec (.incAbsolute hhll) = ⟨.inc, .absolute, 6, false, true⟩ :=
  decodeSpec_EE
@[simp] theorem spec_incAbsoluteX (hhll : Word) : Instr.spec (.incAbsoluteX hhll) = ⟨.inc, .absoluteX, 7, false, true⟩ :=
  decodeSpec_FE
@[simp] theorem spec_decZeroPage (nn : Byte) : Instr.spec (.decZeroPage nn) = ⟨.dec, .zeroPage, 5, false, true⟩ :=
  decodeSpec_C6
@[simp] theorem spec_decZeroPageX (nn : Byte) : Instr.spec (.decZeroPageX nn) = ⟨.dec, .zeroPageX, 6, false, true⟩ :=
  decodeSpec_D6
@[simp] theorem spec_decAbsolute (hhll : Word) : Instr.spec (.decAbsolute hhll) = ⟨.dec, .absolute, 6, false, true⟩ :=
  decodeSpec_CE
@[simp] theorem spec_decAbsoluteX (hhll : Word) : Instr.spec (.decAbsoluteX hhll) = ⟨.dec, .absoluteX, 7, false, true⟩ :=
  decodeSpec_DE
@[simp] theorem spec_inx : Instr.spec (.inx) = ⟨.inx, .implied, 2, false, true⟩ :=
  decodeSpec_E8
@[simp] theorem spec_iny : Instr.spec (.iny) = ⟨.iny, .implied, 2, false, true⟩ :=
  decodeSpec_C8
@[simp] theorem spec_dex : Instr.spec (.dex) = ⟨.dex, .implied, 2, false, true⟩ :=
  decodeSpec_CA
@[simp] theorem spec_dey : Instr.spec (.dey) = ⟨.dey, .implied, 2, false, true⟩ :=
  decodeSpec_88
@[simp] theorem spec_andImmediate (nn : Byte) : Instr.spec (.andImmediate nn) = ⟨.and, .immediate, 2, false, true⟩ :=
  decodeSpec_29
@[simp] theorem spec_andZeroPage (nn : Byte) : Instr.spec (.andZeroPage nn) = ⟨.and, .zeroPage, 3, false, true⟩ :=
  decodeSpec_25
@[simp] theorem spec_andZeroPageX (nn : Byte) : Instr.spec (.andZeroPageX nn) = ⟨.and, .zeroPageX, 4, false, true⟩ :=
  decodeSpec_35
@[simp] theorem spec_andAbsolute (hhll : Word) : Instr.spec (.andAbsolute hhll) = ⟨.and, .absolute, 4, false, true⟩ :=
  decodeSpec_2D
@[simp] theorem spec_andAbsoluteX (hhll : Word) : Instr.spec (.andAbsoluteX hhll) = ⟨.and, .absoluteX, 4, true, true⟩ :=
  decodeSpec_3D
@[simp] theorem spec_andAbsoluteY (hhll : Word) : Instr.spec (.andAbsoluteY hhll) = ⟨.and, .absoluteY, 4, true, true⟩ :=
  decodeSpec_39
@[simp] theorem spec_andIndirectX (nn : Byte) : Instr.spec (.andIndirectX nn) = ⟨.and, .indirectX, 6, false, true⟩ :=
  decodeSpec_21
@[simp] theorem spec_andIndirectY (nn : Byte) : Instr.spec (.andIndirectY nn) = ⟨.and, .indirectY, 5, true, true⟩ :=
  decodeSpec_31
@[simp] theorem spec_oraImmediate (nn : Byte) : Instr.spec (.oraImmediate nn) = ⟨.ora, .immediate, 2, false, true⟩ :=
  decodeSpec_09
@[simp] theorem spec_oraZeroPage (nn : Byte) : Instr.spec (.oraZeroPage nn) = ⟨.ora, .zeroPage, 3, false, true⟩ :=
  decodeSpec_05
@[simp] theorem spec_oraZeroPageX (nn : Byte) : Instr.spec (.oraZeroPageX nn) = ⟨.ora, .zeroPageX, 4, false, true⟩ :=
  decodeSpec_15
@[simp] theorem spec_oraAbsolute (hhll : Word) : Instr.spec (.oraAbsolute hhll) = ⟨.ora, .absolute, 4, false, true⟩ :=
  decodeSpec_0D
@[simp] theorem spec_oraAbsoluteX (hhll : Word) : Instr.spec (.oraAbsoluteX hhll) = ⟨.ora, .absoluteX, 4, true, true⟩ :=
  decodeSpec_1D
@[simp] theorem spec_oraAbsoluteY (hhll : Word) : Instr.spec (.oraAbsoluteY hhll) = ⟨.ora, .absoluteY, 4, true, true⟩ :=
  decodeSpec_19
@[simp] theorem spec_oraIndirectX (nn : Byte) : Instr.spec (.oraIndirectX nn) = ⟨.ora, .indirectX, 6, false, true⟩ :=
  decodeSpec_01
@[simp] theorem spec_oraIndirectY (nn : Byte) : Instr.spec (.oraIndirectY nn) = ⟨.ora, .indirectY, 5, true, true⟩ :=
  decodeSpec_11
@[simp] theorem spec_eorImmediate (nn : Byte) : Instr.spec (.eorImmediate nn) = ⟨.eor, .immediate, 2, false, true⟩ :=
  decodeSpec_49
@[simp] theorem spec_eorZeroPage (nn : Byte) : Instr.spec (.eorZeroPage nn) = ⟨.eor, .zeroPage, 3, false, true⟩ :=
  decodeSpec_45
@[simp] theorem spec_eorZeroPageX (nn : Byte) : Instr.spec (.eorZeroPageX nn) = ⟨.eor, .zeroPageX, 4, false, true⟩ :=
  decodeSpec_55
@[simp] theorem spec_eorAbsolute (hhll : Word) : Instr.spec (.eorAbsolute hhll) = ⟨.eor, .absolute, 4, false, true⟩ :=
  decodeSpec_4D
@[simp] theorem spec_eorAbsoluteX (hhll : Word) : Instr.spec (.eorAbsoluteX hhll) = ⟨.eor, .absoluteX, 4, true, true⟩ :=
  decodeSpec_5D
@[simp] theorem spec_eorAbsoluteY (hhll : Word) : Instr.spec (.eorAbsoluteY hhll) = ⟨.eor, .absoluteY, 4, true, true⟩ :=
  decodeSpec_59
@[simp] theorem spec_eorIndirectX (nn : Byte) : Instr.spec (.eorIndirectX nn) = ⟨.eor, .indirectX, 6, false, true⟩ :=
  decodeSpec_41
@[simp] theorem spec_eorIndirectY (nn : Byte) : Instr.spec (.eorIndirectY nn) = ⟨.eor, .indirectY, 5, true, true⟩ :=
  decodeSpec_51
@[simp] theorem spec_bitZeroPage (nn : Byte) : Instr.spec (.bitZeroPage nn) = ⟨.bit, .zeroPage, 3, false, true⟩ :=
  decodeSpec_24
@[simp] theorem spec_bitAbsolute (hhll : Word) : Instr.spec (.bitAbsolute hhll) = ⟨.bit, .absolute, 4, false, true⟩ :=
  decodeSpec_2C
@[simp] theorem spec_aslZeroPage (nn : Byte) : Instr.spec (.aslZeroPage nn) = ⟨.asl, .zeroPage, 5, false, true⟩ :=
  decodeSpec_06
@[simp] theorem spec_aslZeroPageX (nn : Byte) : Instr.spec (.aslZeroPageX nn) = ⟨.asl, .zeroPageX, 6, false, true⟩ :=
  decodeSpec_16
@[simp] theorem spec_aslAbsolute (hhll : Word) : Instr.spec (.aslAbsolute hhll) = ⟨.asl, .absolute, 6, false, true⟩ :=
  decodeSpec_0E
@[simp] theorem spec_aslAbsoluteX (hhll : Word) : Instr.spec (.aslAbsoluteX hhll) = ⟨.asl, .absoluteX, 7, false, true⟩ :=
  decodeSpec_1E
@[simp] theorem spec_aslAccumulator : Instr.spec (.aslAccumulator) = ⟨.asl, .accumulator, 2, false, true⟩ :=
  decodeSpec_0A
@[simp] theorem spec_lsrZeroPage (nn : Byte) : Instr.spec (.lsrZeroPage nn) = ⟨.lsr, .zeroPage, 5, false, true⟩ :=
  decodeSpec_46
@[simp] theorem spec_lsrZeroPageX (nn : Byte) : Instr.spec (.lsrZeroPageX nn) = ⟨.lsr, .zeroPageX, 6, false, true⟩ :=
  decodeSpec_56
@[simp] theorem spec_lsrAbsolute (hhll : Word) : Instr.spec (.lsrAbsolute hhll) = ⟨.lsr, .absolute, 6, false, true⟩ :=
  decodeSpec_4E
@[simp] theorem spec_lsrAbsoluteX (hhll : Word) : Instr.spec (.lsrAbsoluteX hhll) = ⟨.lsr, .absoluteX, 7, false, true⟩ :=
  decodeSpec_5E
@[simp] theorem spec_lsrAccumulator : Instr.spec (.lsrAccumulator) = ⟨.lsr, .accumulator, 2, false, true⟩ :=
  decodeSpec_4A
@[simp] theorem spec_rolZeroPage (nn : Byte) : Instr.spec (.rolZeroPage nn) = ⟨.rol, .zeroPage, 5, false, true⟩ :=
  decodeSpec_26
@[simp] theorem spec_rolZeroPageX (nn : Byte) : Instr.spec (.rolZeroPageX nn) = ⟨.rol, .zeroPageX, 6, false, true⟩ :=
  decodeSpec_36
@[simp] theorem spec_rolAbsolute (hhll : Word) : Instr.spec (.rolAbsolute hhll) = ⟨.rol, .absolute, 6, false, true⟩ :=
  decodeSpec_2E
@[simp] theorem spec_rolAbsoluteX (hhll : Word) : Instr.spec (.rolAbsoluteX hhll) = ⟨.rol, .absoluteX, 7, false, true⟩ :=
  decodeSpec_3E
@[simp] theorem spec_rolAccumulator : Instr.spec (.rolAccumulator) = ⟨.rol, .accumulator, 2, false, true⟩ :=
  decodeSpec_2A
@[simp] theorem spec_rorZeroPage (nn : Byte) : Instr.spec (.rorZeroPage nn) = ⟨.ror, .zeroPage, 5, false, true⟩ :=
  decodeSpec_66
@[simp] theorem spec_rorZeroPageX (nn : Byte) : Instr.spec (.rorZeroPageX nn) = ⟨.ror, .zeroPageX, 6, false, true⟩ :=
  decodeSpec_76
@[simp] theorem spec_rorAbsolute (hhll : Word) : Instr.spec (.rorAbsolute hhll) = ⟨.ror, .absolute, 6, false, true⟩ :=
  decodeSpec_6E
@[simp] theorem spec_rorAbsoluteX (hhll : Word) : Instr.spec (.rorAbsoluteX hhll) = ⟨.ror, .absoluteX, 7, false, true⟩ :=
  decodeSpec_7E
@[simp] theorem spec_rorAccumulator : Instr.spec (.rorAccumulator) = ⟨.ror, .accumulator, 2, false, true⟩ :=
  decodeSpec_6A
@[simp] theorem spec_cmpImmediate (nn : Byte) : Instr.spec (.cmpImmediate nn) = ⟨.cmp, .immediate, 2, false, true⟩ :=
  decodeSpec_C9
@[simp] theorem spec_cmpZeroPage (nn : Byte) : Instr.spec (.cmpZeroPage nn) = ⟨.cmp, .zeroPage, 3, false, true⟩ :=
  decodeSpec_C5
@[simp] theorem spec_cmpZeroPageX (nn : Byte) : Instr.spec (.cmpZeroPageX nn) = ⟨.cmp, .zeroPageX, 4, false, true⟩ :=
  decodeSpec_D5
@[simp] theorem spec_cmpAbsolute (hhll : Word) : Instr.spec (.cmpAbsolute hhll) = ⟨.cmp, .absolute, 4, false, true⟩ :=
  decodeSpec_CD
@[simp] theorem spec_cmpAbsoluteX (hhll : Word) : Instr.spec (.cmpAbsoluteX hhll) = ⟨.cmp, .absoluteX, 4, true, true⟩ :=
  decodeSpec_DD
@[simp] theorem spec_cmpAbsoluteY (hhll : Word) : Instr.spec (.cmpAbsoluteY hhll) = ⟨.cmp, .absoluteY, 4, true, true⟩ :=
  decodeSpec_D9
@[simp] theorem spec_cmpIndirectX (nn : Byte) : Instr.spec (.cmpIndirectX nn) = ⟨.cmp, .indirectX, 6, false, true⟩ :=
  decodeSpec_C1
@[simp] theorem spec_cmpIndirectY (nn : Byte) : Instr.spec (.cmpIndirectY nn) = ⟨.cmp, .indirectY, 5, true, true⟩ :=
  decodeSpec_D1
@[simp] theorem spec_cpxImmediate (nn : Byte) : Instr.spec (.cpxImmediate nn) = ⟨.cpx, .immediate, 2, false, true⟩ :=
  decodeSpec_E0
@[simp] theorem spec_cpxZeroPage (nn : Byte) : Instr.spec (.cpxZeroPage nn) = ⟨.cpx, .zeroPage, 3, false, true⟩ :=
  decodeSpec_E4
@[simp] theorem spec_cpxAbsolute (hhll : Word) : Instr.spec (.cpxAbsolute hhll) = ⟨.cpx, .absolute, 4, false, true⟩ :=
  decodeSpec_EC
@[simp] theorem spec_cpyImmediate (nn : Byte) : Instr.spec (.cpyImmediate nn) = ⟨.cpy, .immediate, 2, false, true⟩ :=
  decodeSpec_C0
@[simp] theorem spec_cpyZeroPage (nn : Byte) : Instr.spec (.cpyZeroPage nn) = ⟨.cpy, .zeroPage, 3, false, true⟩ :=
  decodeSpec_C4
@[simp] theorem spec_cpyAbsolute (hhll : Word) : Instr.spec (.cpyAbsolute hhll) = ⟨.cpy, .absolute, 4, false, true⟩ :=
  decodeSpec_CC
@[simp] theorem spec_bpl (nn : Byte) : Instr.spec (.bpl nn) = ⟨.bpl, .relative, 2, false, true⟩ :=
  decodeSpec_10
@[simp] theorem spec_bmi (nn : Byte) : Instr.spec (.bmi nn) = ⟨.bmi, .relative, 2, false, true⟩ :=
  decodeSpec_30
@[simp] theorem spec_bvc (nn : Byte) : Instr.spec (.bvc nn) = ⟨.bvc, .relative, 2, false, true⟩ :=
  decodeSpec_50
@[simp] theorem spec_bvs (nn : Byte) : Instr.spec (.bvs nn) = ⟨.bvs, .relative, 2, false, true⟩ :=
  decodeSpec_70
@[simp] theorem spec_bcc (nn : Byte) : Instr.spec (.bcc nn) = ⟨.bcc, .relative, 2, false, true⟩ :=
  decodeSpec_90
@[simp] theorem spec_bcs (nn : Byte) : Instr.spec (.bcs nn) = ⟨.bcs, .relative, 2, false, true⟩ :=
  decodeSpec_B0
@[simp] theorem spec_bne (nn : Byte) : Instr.spec (.bne nn) = ⟨.bne, .relative, 2, false, true⟩ :=
  decodeSpec_D0
@[simp] theorem spec_beq (nn : Byte) : Instr.spec (.beq nn) = ⟨.beq, .relative, 2, false, true⟩ :=
  decodeSpec_F0
@[simp] theorem spec_jmpAbsolute (hhll : Word) : Instr.spec (.jmpAbsolute hhll) = ⟨.jmp, .absolute, 3, false, true⟩ :=
  decodeSpec_4C
@[simp] theorem spec_jmpIndirect (hhll : Word) : Instr.spec (.jmpIndirect hhll) = ⟨.jmp, .indirect, 5, false, true⟩ :=
  decodeSpec_6C
@[simp] theorem spec_jsr (hhll : Word) : Instr.spec (.jsr hhll) = ⟨.jsr, .absolute, 6, false, true⟩ :=
  decodeSpec_20
@[simp] theorem spec_rts : Instr.spec (.rts) = ⟨.rts, .implied, 6, false, true⟩ :=
  decodeSpec_60
@[simp] theorem spec_pha : Instr.spec (.pha) = ⟨.pha, .implied, 3, false, true⟩ :=
  decodeSpec_48
@[simp] theorem spec_pla : Instr.spec (.pla) = ⟨.pla, .implied, 4, false, true⟩ :=
  decodeSpec_68
@[simp] theorem spec_php : Instr.spec (.php) = ⟨.php, .implied, 3, false, true⟩ :=
  decodeSpec_08
@[simp] theorem spec_plp : Instr.spec (.plp) = ⟨.plp, .implied, 4, false, true⟩ :=
  decodeSpec_28
@[simp] theorem spec_brk : Instr.spec (.brk) = ⟨.brk, .implied, 7, false, true⟩ :=
  decodeSpec_00
@[simp] theorem spec_rti : Instr.spec (.rti) = ⟨.rti, .implied, 6, false, true⟩ :=
  decodeSpec_40
@[simp] theorem spec_nop : Instr.spec (.nop) = ⟨.nop, .implied, 2, false, true⟩ :=
  decodeSpec_EA
@[simp] theorem spec_clc : Instr.spec (.clc) = ⟨.clc, .implied, 2, false, true⟩ :=
  decodeSpec_18
@[simp] theorem spec_sec : Instr.spec (.sec) = ⟨.sec, .implied, 2, false, true⟩ :=
  decodeSpec_38
@[simp] theorem spec_cli : Instr.spec (.cli) = ⟨.cli, .implied, 2, false, true⟩ :=
  decodeSpec_58
@[simp] theorem spec_sei : Instr.spec (.sei) = ⟨.sei, .implied, 2, false, true⟩ :=
  decodeSpec_78
@[simp] theorem spec_clv : Instr.spec (.clv) = ⟨.clv, .implied, 2, false, true⟩ :=
  decodeSpec_B8
@[simp] theorem spec_cld : Instr.spec (.cld) = ⟨.cld, .implied, 2, false, true⟩ :=
  decodeSpec_D8
@[simp] theorem spec_sed : Instr.spec (.sed) = ⟨.sed, .implied, 2, false, true⟩ :=
  decodeSpec_F8

theorem findRow_undocumented : ∀ op ∈ undocumentedOpcodes, findRow op = none := by
  have h : (undocumentedOpcodes.all fun op => (findRow op).isNone) = true := by rfl
  exact fun op hop => Option.isNone_iff_eq_none.mp (List.all_eq_true.mp h op hop)

theorem decodeSpec_undocumented {op : Byte} (h : op ∈ undocumentedOpcodes) :
    decodeSpec op = ⟨.unimplemented, .implied, 0, false, false⟩ := by
  simp [decodeSpec, findRow_undocumented op h]

theorem formatOf_undocumented {op : Byte} (h : op ∈ undocumentedOpcodes) :
    formatOf op = .f1 (.unimplemented op) := by
  simp [formatOf, findRow_undocumented op h]

theorem mem_undocumented_of_wellFormed {op : Byte} (h : (Instr.unimplemented op).WellFormed) :
    op ∈ undocumentedOpcodes := by
  simpa [Instr.WellFormed, Instr.wellFormed] using h

end Sys2Proof.Laws
end

