-- ==== Sys2Proof/Laws/Exec.lean ====
section
/-! SUPPORT. What an instruction's step does, said once: the shared S5 to S8 (`perform`), each kind of body, the call of
`step()` and its outcome (40_execution_core.md R111, R112, R117). -/

namespace Sys2Proof.Machine

/-- The cycles an instruction is charged (R117). -/
def cyclesOf (spec : InstructionSpec) (d : Executed) : Nat :=
  spec.baseCycles + (if spec.pageCrossAddsCycle && d.crossed then 1 else 0) + d.extra

/-- `perform` completes, and this is the state it leaves. -/
theorem perform_eq {opcode : Byte} {spec : InstructionSpec} (h : decodeSpec opcode = spec)
    (body : Word → State → Executed) (s : State) :
    perform opcode body s =
      .next ((body s.pc (s.setPc (s.pc + BitVec.ofNat 16 spec.length))).state.addCyc
        (cyclesOf spec (body s.pc (s.setPc (s.pc + BitVec.ofNat 16 spec.length))))) := by
  subst h; rfl

/-- `perform` always completes. -/
theorem perform_completes (opcode : Byte) (body : Word → State → Executed) (s : State) :
    ∃ t, perform opcode body s = .next t := ⟨_, rfl⟩

/-! ### Lengths (30_encoding.md R81, R83) -/

@[simp] theorem length_eq (k : Kind) (m : Mode) (b : Nat) (p d : Bool) :
    InstructionSpec.length ⟨k, m, b, p, d⟩ = 1 + m.width := rfl
@[simp] theorem width_implied : Mode.width .implied = 0 := rfl
@[simp] theorem width_accumulator : Mode.width .accumulator = 0 := rfl
@[simp] theorem width_immediate : Mode.width .immediate = 1 := rfl
@[simp] theorem width_zeroPage : Mode.width .zeroPage = 1 := rfl
@[simp] theorem width_zeroPageX : Mode.width .zeroPageX = 1 := rfl
@[simp] theorem width_zeroPageY : Mode.width .zeroPageY = 1 := rfl
@[simp] theorem width_relative : Mode.width .relative = 1 := rfl
@[simp] theorem width_indirectX : Mode.width .indirectX = 1 := rfl
@[simp] theorem width_indirectY : Mode.width .indirectY = 1 := rfl
@[simp] theorem width_absolute : Mode.width .absolute = 2 := rfl
@[simp] theorem width_absoluteX : Mode.width .absoluteX = 2 := rfl
@[simp] theorem width_absoluteY : Mode.width .absoluteY = 2 := rfl
@[simp] theorem width_indirect : Mode.width .indirect = 2 := rfl

/-! ### Bodies -/

@[simp] theorem implied_eq (f : State → State) (w : Word) (s : State) : implied f w s = ⟨f s, false, 0⟩ := rfl
@[simp] theorem reading_eq (src : Source) (f : Byte → State → State) (w : Word) (s : State) :
    reading src f w s = ⟨f (readSource src s).1 s, (readSource src s).2, 0⟩ := rfl
@[simp] theorem storing_eq (m : Addressing) (f : State → Byte) (w : Word) (s : State) :
    storing m f w s = ⟨s.write (resolve m s).ea (f s), (resolve m s).crossed, 0⟩ := rfl
@[simp] theorem modifying_accumulator (f : Byte → Byte → Byte × Byte) (w : Word) (s : State) :
    modifying .accumulator f w s = ⟨(s.setA (f s.p s.a).1).setP (f s.p s.a).2, false, 0⟩ := rfl
@[simp] theorem modifying_memory (m : Addressing) (f : Byte → Byte → Byte × Byte) (w : Word) (s : State) :
    modifying (.memory m) f w s =
      ⟨(s.write (resolve m s).ea (f s.p (s.read (resolve m s).ea)).1).setP (f s.p (s.read (resolve m s).ea)).2,
        (resolve m s).crossed, 0⟩ := rfl
@[simp] theorem jumping_eq (m : Addressing) (f : Word → State → State) (w : Word) (s : State) :
    jumping m f w s = ⟨f (resolve m s).ea s, (resolve m s).crossed, 0⟩ := rfl
theorem branching_taken {cond : State → Bool} {s : State} (h : cond s = true) (nn : Byte) (w : Word) :
    branching cond nn w s =
      ⟨s.setPc (s.pc + signExtend16 nn), false, 1 + (if pageDiff (s.pc + signExtend16 nn) w then 1 else 0)⟩ := by
  unfold branching; rw [if_pos h]; rfl
theorem branching_not_taken {cond : State → Bool} {s : State} (h : cond s = false) (nn : Byte) (w : Word) :
    branching cond nn w s = ⟨s, false, 0⟩ := by
  simp [branching, h]

/-! ### step() -/

@[simp] theorem State.record_off {s : State} (h : s.recorder.recording = false) (e : TraceEntry) : s.record e = s := by
  simp [State.record, h]
theorem State.record_on {s : State} (h : s.recorder.recording = true) (e : TraceEntry) :
    s.record e = s.setRecorder ⟨true, s.recorder.entries ++ [e]⟩ := by
  simp [State.record, h]

/-- The recorder is all that recording touches. -/
theorem State.record_eq (s : State) (e : TraceEntry) : ∃ r, s.record e = s.setRecorder r := by
  unfold State.record; split
  · exact ⟨_, rfl⟩
  · exact ⟨s.recorder, rfl⟩

theorem callStep_halted {s : State} {b : Byte} (h : s.halted = some b) :
    callStep s = .fault (.unimplementedOpcode b) s := by
  simp [callStep, h]

theorem callStep_running {s : State} (h : s.halted = none) : callStep s = runInstruction s.checkInterrupts := by
  simp [callStep, h]

theorem runInstruction_next {s t : State} (h : exec s.fetch s = .next t) :
    runInstruction s = .ok s.entryAtPc (t.record s.entryAtPc) := by
  simp [runInstruction, h]

theorem runInstruction_fault {s : State} {f : Fault} (h : exec s.fetch s = .fault f) :
    runInstruction s = .fault f (s.afterFault f) := by
  simp [runInstruction, h]

/-- The next states of `step` are those of an instruction run after the interrupt check, recorded. -/
theorem step_next {s t : State} (h : step s = .next t) :
    s.halted = none ∧ ∃ u, exec s.checkInterrupts.fetch s.checkInterrupts = .next u ∧
      t = u.record s.checkInterrupts.entryAtPc := by
  cases hh : s.halted with
  | some b => simp [step, callStep_halted hh, StepResult.outcome] at h
  | none =>
    refine ⟨rfl, ?_⟩
    rw [step, callStep_running hh] at h
    cases he : exec s.checkInterrupts.fetch s.checkInterrupts with
    | next u =>
      rw [runInstruction_next he] at h
      refine ⟨u, rfl, ?_⟩
      simpa [StepResult.outcome] using h.symm
    | fault f => rw [runInstruction_fault he] at h; simp [StepResult.outcome] at h
    | refused r => simp [runInstruction, he, StepResult.outcome] at h

/-- `step` and `callStep` agree: the same next state, the same fault. -/
theorem step_eq_outcome (s : State) : step s = (callStep s).outcome := rfl

end Sys2Proof.Machine
end

