-- ==== Sys2Proof/Laws/Bodies.lean ====
section
/-! SUPPORT. What `exec` runs for each instruction: its body, as one function, and the equation that `exec` is `perform`
of that body. A claim about every instruction is a claim about every body. -/

namespace Sys2Proof.Machine

/-- The body of an instruction; none for the `Unimplemented` variant. -/
def bodyOf : Instr → Option (Word → State → Executed)
  | .ldaImmediate nn => some (reading (.immediate nn) loadA)
  | .ldaZeroPage nn => some (reading (.memory (.zeroPage nn)) loadA)
  | .ldaZeroPageX nn => some (reading (.memory (.zeroPageX nn)) loadA)
  | .ldaAbsolute hhll => some (reading (.memory (.absolute hhll)) loadA)
  | .ldaAbsoluteX hhll => some (reading (.memory (.absoluteX hhll)) loadA)
  | .ldaAbsoluteY hhll => some (reading (.memory (.absoluteY hhll)) loadA)
  | .ldaIndirectX nn => some (reading (.memory (.indirectX nn)) loadA)
  | .ldaIndirectY nn => some (reading (.memory (.indirectY nn)) loadA)
  | .ldxImmediate nn => some (reading (.immediate nn) loadX)
  | .ldxZeroPage nn => some (reading (.memory (.zeroPage nn)) loadX)
  | .ldxZeroPageY nn => some (reading (.memory (.zeroPageY nn)) loadX)
  | .ldxAbsolute hhll => some (reading (.memory (.absolute hhll)) loadX)
  | .ldxAbsoluteY hhll => some (reading (.memory (.absoluteY hhll)) loadX)
  | .ldyImmediate nn => some (reading (.immediate nn) loadY)
  | .ldyZeroPage nn => some (reading (.memory (.zeroPage nn)) loadY)
  | .ldyZeroPageX nn => some (reading (.memory (.zeroPageX nn)) loadY)
  | .ldyAbsolute hhll => some (reading (.memory (.absolute hhll)) loadY)
  | .ldyAbsoluteX hhll => some (reading (.memory (.absoluteX hhll)) loadY)
  | .staZeroPage nn => some (storing (.zeroPage nn) valueA)
  | .staZeroPageX nn => some (storing (.zeroPageX nn) valueA)
  | .staAbsolute hhll => some (storing (.absolute hhll) valueA)
  | .staAbsoluteX hhll => some (storing (.absoluteX hhll) valueA)
  | .staAbsoluteY hhll => some (storing (.absoluteY hhll) valueA)
  | .staIndirectX nn => some (storing (.indirectX nn) valueA)
  | .staIndirectY nn => some (storing (.indirectY nn) valueA)
  | .stxZeroPage nn => some (storing (.zeroPage nn) valueX)
  | .stxZeroPageY nn => some (storing (.zeroPageY nn) valueX)
  | .stxAbsolute hhll => some (storing (.absolute hhll) valueX)
  | .styZeroPage nn => some (storing (.zeroPage nn) valueY)
  | .styZeroPageX nn => some (storing (.zeroPageX nn) valueY)
  | .styAbsolute hhll => some (storing (.absolute hhll) valueY)
  | .tax => some (implied transferAX)
  | .tay => some (implied transferAY)
  | .txa => some (implied transferXA)
  | .tya => some (implied transferYA)
  | .tsx => some (implied transferSX)
  | .txs => some (implied transferXS)
  | .adcImmediate nn => some (reading (.immediate nn) addOperand)
  | .adcZeroPage nn => some (reading (.memory (.zeroPage nn)) addOperand)
  | .adcZeroPageX nn => some (reading (.memory (.zeroPageX nn)) addOperand)
  | .adcAbsolute hhll => some (reading (.memory (.absolute hhll)) addOperand)
  | .adcAbsoluteX hhll => some (reading (.memory (.absoluteX hhll)) addOperand)
  | .adcAbsoluteY hhll => some (reading (.memory (.absoluteY hhll)) addOperand)
  | .adcIndirectX nn => some (reading (.memory (.indirectX nn)) addOperand)
  | .adcIndirectY nn => some (reading (.memory (.indirectY nn)) addOperand)
  | .sbcImmediate nn => some (reading (.immediate nn) subtractOperand)
  | .sbcZeroPage nn => some (reading (.memory (.zeroPage nn)) subtractOperand)
  | .sbcZeroPageX nn => some (reading (.memory (.zeroPageX nn)) subtractOperand)
  | .sbcAbsolute hhll => some (reading (.memory (.absolute hhll)) subtractOperand)
  | .sbcAbsoluteX hhll => some (reading (.memory (.absoluteX hhll)) subtractOperand)
  | .sbcAbsoluteY hhll => some (reading (.memory (.absoluteY hhll)) subtractOperand)
  | .sbcIndirectX nn => some (reading (.memory (.indirectX nn)) subtractOperand)
  | .sbcIndirectY nn => some (reading (.memory (.indirectY nn)) subtractOperand)
  | .incZeroPage nn => some (modifying (.memory (.zeroPage nn)) incremented)
  | .incZeroPageX nn => some (modifying (.memory (.zeroPageX nn)) incremented)
  | .incAbsolute hhll => some (modifying (.memory (.absolute hhll)) incremented)
  | .incAbsoluteX hhll => some (modifying (.memory (.absoluteX hhll)) incremented)
  | .decZeroPage nn => some (modifying (.memory (.zeroPage nn)) decremented)
  | .decZeroPageX nn => some (modifying (.memory (.zeroPageX nn)) decremented)
  | .decAbsolute hhll => some (modifying (.memory (.absolute hhll)) decremented)
  | .decAbsoluteX hhll => some (modifying (.memory (.absoluteX hhll)) decremented)
  | .inx => some (implied incrementX)
  | .iny => some (implied incrementY)
  | .dex => some (implied decrementX)
  | .dey => some (implied decrementY)
  | .andImmediate nn => some (reading (.immediate nn) andOperand)
  | .andZeroPage nn => some (reading (.memory (.zeroPage nn)) andOperand)
  | .andZeroPageX nn => some (reading (.memory (.zeroPageX nn)) andOperand)
  | .andAbsolute hhll => some (reading (.memory (.absolute hhll)) andOperand)
  | .andAbsoluteX hhll => some (reading (.memory (.absoluteX hhll)) andOperand)
  | .andAbsoluteY hhll => some (reading (.memory (.absoluteY hhll)) andOperand)
  | .andIndirectX nn => some (reading (.memory (.indirectX nn)) andOperand)
  | .andIndirectY nn => some (reading (.memory (.indirectY nn)) andOperand)
  | .oraImmediate nn => some (reading (.immediate nn) orOperand)
  | .oraZeroPage nn => some (reading (.memory (.zeroPage nn)) orOperand)
  | .oraZeroPageX nn => some (reading (.memory (.zeroPageX nn)) orOperand)
  | .oraAbsolute hhll => some (reading (.memory (.absolute hhll)) orOperand)
  | .oraAbsoluteX hhll => some (reading (.memory (.absoluteX hhll)) orOperand)
  | .oraAbsoluteY hhll => some (reading (.memory (.absoluteY hhll)) orOperand)
  | .oraIndirectX nn => some (reading (.memory (.indirectX nn)) orOperand)
  | .oraIndirectY nn => some (reading (.memory (.indirectY nn)) orOperand)
  | .eorImmediate nn => some (reading (.immediate nn) xorOperand)
  | .eorZeroPage nn => some (reading (.memory (.zeroPage nn)) xorOperand)
  | .eorZeroPageX nn => some (reading (.memory (.zeroPageX nn)) xorOperand)
  | .eorAbsolute hhll => some (reading (.memory (.absolute hhll)) xorOperand)
  | .eorAbsoluteX hhll => some (reading (.memory (.absoluteX hhll)) xorOperand)
  | .eorAbsoluteY hhll => some (reading (.memory (.absoluteY hhll)) xorOperand)
  | .eorIndirectX nn => some (reading (.memory (.indirectX nn)) xorOperand)
  | .eorIndirectY nn => some (reading (.memory (.indirectY nn)) xorOperand)
  | .bitZeroPage nn => some (reading (.memory (.zeroPage nn)) testBits)
  | .bitAbsolute hhll => some (reading (.memory (.absolute hhll)) testBits)
  | .aslZeroPage nn => some (modifying (.memory (.zeroPage nn)) shiftedLeft)
  | .aslZeroPageX nn => some (modifying (.memory (.zeroPageX nn)) shiftedLeft)
  | .aslAbsolute hhll => some (modifying (.memory (.absolute hhll)) shiftedLeft)
  | .aslAbsoluteX hhll => some (modifying (.memory (.absoluteX hhll)) shiftedLeft)
  | .aslAccumulator => some (modifying .accumulator shiftedLeft)
  | .lsrZeroPage nn => some (modifying (.memory (.zeroPage nn)) shiftedRight)
  | .lsrZeroPageX nn => some (modifying (.memory (.zeroPageX nn)) shiftedRight)
  | .lsrAbsolute hhll => some (modifying (.memory (.absolute hhll)) shiftedRight)
  | .lsrAbsoluteX hhll => some (modifying (.memory (.absoluteX hhll)) shiftedRight)
  | .lsrAccumulator => some (modifying .accumulator shiftedRight)
  | .rolZeroPage nn => some (modifying (.memory (.zeroPage nn)) rotatedLeft)
  | .rolZeroPageX nn => some (modifying (.memory (.zeroPageX nn)) rotatedLeft)
  | .rolAbsolute hhll => some (modifying (.memory (.absolute hhll)) rotatedLeft)
  | .rolAbsoluteX hhll => some (modifying (.memory (.absoluteX hhll)) rotatedLeft)
  | .rolAccumulator => some (modifying .accumulator rotatedLeft)
  | .rorZeroPage nn => some (modifying (.memory (.zeroPage nn)) rotatedRight)
  | .rorZeroPageX nn => some (modifying (.memory (.zeroPageX nn)) rotatedRight)
  | .rorAbsolute hhll => some (modifying (.memory (.absolute hhll)) rotatedRight)
  | .rorAbsoluteX hhll => some (modifying (.memory (.absoluteX hhll)) rotatedRight)
  | .rorAccumulator => some (modifying .accumulator rotatedRight)
  | .cmpImmediate nn => some (reading (.immediate nn) compareA)
  | .cmpZeroPage nn => some (reading (.memory (.zeroPage nn)) compareA)
  | .cmpZeroPageX nn => some (reading (.memory (.zeroPageX nn)) compareA)
  | .cmpAbsolute hhll => some (reading (.memory (.absolute hhll)) compareA)
  | .cmpAbsoluteX hhll => some (reading (.memory (.absoluteX hhll)) compareA)
  | .cmpAbsoluteY hhll => some (reading (.memory (.absoluteY hhll)) compareA)
  | .cmpIndirectX nn => some (reading (.memory (.indirectX nn)) compareA)
  | .cmpIndirectY nn => some (reading (.memory (.indirectY nn)) compareA)
  | .cpxImmediate nn => some (reading (.immediate nn) compareX)
  | .cpxZeroPage nn => some (reading (.memory (.zeroPage nn)) compareX)
  | .cpxAbsolute hhll => some (reading (.memory (.absolute hhll)) compareX)
  | .cpyImmediate nn => some (reading (.immediate nn) compareY)
  | .cpyZeroPage nn => some (reading (.memory (.zeroPage nn)) compareY)
  | .cpyAbsolute hhll => some (reading (.memory (.absolute hhll)) compareY)
  | .bpl nn => some (branching ifPlus nn)
  | .bmi nn => some (branching ifMinus nn)
  | .bvc nn => some (branching ifOverflowClear nn)
  | .bvs nn => some (branching ifOverflowSet nn)
  | .bcc nn => some (branching ifCarryClear nn)
  | .bcs nn => some (branching ifCarrySet nn)
  | .bne nn => some (branching ifNotEqual nn)
  | .beq nn => some (branching ifEqual nn)
  | .jmpAbsolute hhll => some (jumping (.absolute hhll) jumpTo)
  | .jmpIndirect hhll => some (jumping (.indirect hhll) jumpTo)
  | .jsr hhll => some (jumping (.absolute hhll) callTo)
  | .rts => some (implied returnFromCall)
  | .pha => some (implied pushA)
  | .pla => some (implied pullA)
  | .php => some (implied pushStatus)
  | .plp => some (implied pullStatus)
  | .brk => some (implied softwareInterrupt)
  | .rti => some (implied interruptReturn)
  | .nop => some (implied noOperation)
  | .clc => some (implied clearCarry)
  | .sec => some (implied setCarry)
  | .cli => some (implied clearInterruptDisable)
  | .sei => some (implied setInterruptDisable)
  | .clv => some (implied clearOverflow)
  | .cld => some (implied clearDecimal)
  | .sed => some (implied setDecimal)
  | .unimplemented _ => none

/-- A documented instruction completes with `perform` of its body (R112, S5 to S8). -/
theorem exec_of_body {i : Instr} {body : Word → State → Executed} (h : bodyOf i = some body) (s : State) :
    exec i s = perform i.opcode body s := by
  cases i <;> simp only [bodyOf, Option.some.injEq, reduceCtorEq] at h <;> subst h <;> rfl

/-- The `Unimplemented` variant is the only instruction without a body, and it faults (48_system.md R266). -/
theorem exec_of_no_body {i : Instr} (h : bodyOf i = none) :
    ∃ op, i = .unimplemented op ∧ ∀ s, exec i s = .fault (.unimplementedOpcode op) := by
  cases i <;> simp only [bodyOf, reduceCtorEq] at h
  exact ⟨_, rfl, fun _ => rfl⟩

/-- A next state of `exec` is what the instruction's body leaves, with at least its base cycles charged (R117). -/
theorem exec_next {i : Instr} {s t : State} (h : exec i s = .next t) :
    ∃ body n, bodyOf i = some body ∧ i.spec.baseCycles ≤ n ∧
      t = (body s.pc (s.setPc (s.pc + BitVec.ofNat 16 i.length))).state.addCyc n := by
  cases hb : bodyOf i with
  | none =>
    obtain ⟨op, -, he⟩ := exec_of_no_body hb
    rw [he] at h; cases h
  | some body =>
    rw [exec_of_body hb] at h
    have e := Host.Outcome.next.inj h
    exact ⟨body, _, rfl, Nat.le_trans (Nat.le_add_right _ _) (Nat.le_add_right _ _), e.symm⟩

end Sys2Proof.Machine
end

