-- ==== Sys2Proof/Laws/PerInstr.lean ====
section
/-! SUPPORT. One fact for each instruction: its encoding is as long as the entry of its opcode byte says, and that entry
has its mnemonic (30_encoding.md R80, R81, R84, R86). -/

namespace Sys2Proof.Laws

/-- The mnemonic of an instruction, as its constructor names it. -/
def kindOf : Instr → Kind
  | .ldaImmediate _ => .lda
  | .ldaZeroPage _ => .lda
  | .ldaZeroPageX _ => .lda
  | .ldaAbsolute _ => .lda
  | .ldaAbsoluteX _ => .lda
  | .ldaAbsoluteY _ => .lda
  | .ldaIndirectX _ => .lda
  | .ldaIndirectY _ => .lda
  | .ldxImmediate _ => .ldx
  | .ldxZeroPage _ => .ldx
  | .ldxZeroPageY _ => .ldx
  | .ldxAbsolute _ => .ldx
  | .ldxAbsoluteY _ => .ldx
  | .ldyImmediate _ => .ldy
  | .ldyZeroPage _ => .ldy
  | .ldyZeroPageX _ => .ldy
  | .ldyAbsolute _ => .ldy
  | .ldyAbsoluteX _ => .ldy
  | .staZeroPage _ => .sta
  | .staZeroPageX _ => .sta
  | .staAbsolute _ => .sta
  | .staAbsoluteX _ => .sta
  | .staAbsoluteY _ => .sta
  | .staIndirectX _ => .sta
  | .staIndirectY _ => .sta
  | .stxZeroPage _ => .stx
  | .stxZeroPageY _ => .stx
  | .stxAbsolute _ => .stx
  | .styZeroPage _ => .sty
  | .styZeroPageX _ => .sty
  | .styAbsolute _ => .sty
  | .tax => .tax
  | .tay => .tay
  | .txa => .txa
  | .tya => .tya
  | .tsx => .tsx
  | .txs => .txs
  | .adcImmediate _ => .adc
  | .adcZeroPage _ => .adc
  | .adcZeroPageX _ => .adc
  | .adcAbsolute _ => .adc
  | .adcAbsoluteX _ => .adc
  | .adcAbsoluteY _ => .adc
  | .adcIndirectX _ => .adc
  | .adcIndirectY _ => .adc
  | .sbcImmediate _ => .sbc
  | .sbcZeroPage _ => .sbc
  | .sbcZeroPageX _ => .sbc
  | .sbcAbsolute _ => .sbc
  | .sbcAbsoluteX _ => .sbc
  | .sbcAbsoluteY _ => .sbc
  | .sbcIndirectX _ => .sbc
  | .sbcIndirectY _ => .sbc
  | .incZeroPage _ => .inc
  | .incZeroPageX _ => .inc
  | .incAbsolute _ => .inc
  | .incAbsoluteX _ => .inc
  | .decZeroPage _ => .dec
  | .decZeroPageX _ => .dec
  | .decAbsolute _ => .dec
  | .decAbsoluteX _ => .dec
  | .inx => .inx
  | .iny => .iny
  | .dex => .dex
  | .dey => .dey
  | .andImmediate _ => .and
  | .andZeroPage _ => .and
  | .andZeroPageX _ => .and
  | .andAbsolute _ => .and
  | .andAbsoluteX _ => .and
  | .andAbsoluteY _ => .and
  | .andIndirectX _ => .and
  | .andIndirectY _ => .and
  | .oraImmediate _ => .ora
  | .oraZeroPage _ => .ora
  | .oraZeroPageX _ => .ora
  | .oraAbsolute _ => .ora
  | .oraAbsoluteX _ => .ora
  | .oraAbsoluteY _ => .ora
  | .oraIndirectX _ => .ora
  | .oraIndirectY _ => .ora
  | .eorImmediate _ => .eor
  | .eorZeroPage _ => .eor
  | .eorZeroPageX _ => .eor
  | .eorAbsolute _ => .eor
  | .eorAbsoluteX _ => .eor
  | .eorAbsoluteY _ => .eor
  | .eorIndirectX _ => .eor
  | .eorIndirectY _ => .eor
  | .bitZeroPage _ => .bit
  | .bitAbsolute _ => .bit
  | .aslZeroPage _ => .asl
  | .aslZeroPageX _ => .asl
  | .aslAbsolute _ => .asl
  | .aslAbsoluteX _ => .asl
  | .aslAccumulator => .asl
  | .lsrZeroPage _ => .lsr
  | .lsrZeroPageX _ => .lsr
  | .lsrAbsolute _ => .lsr
  | .lsrAbsoluteX _ => .lsr
  | .lsrAccumulator => .lsr
  | .rolZeroPage _ => .rol
  | .rolZeroPageX _ => .rol
  | .rolAbsolute _ => .rol
  | .rolAbsoluteX _ => .rol
  | .rolAccumulator => .rol
  | .rorZeroPage _ => .ror
  | .rorZeroPageX _ => .ror
  | .rorAbsolute _ => .ror
  | .rorAbsoluteX _ => .ror
  | .rorAccumulator => .ror
  | .cmpImmediate _ => .cmp
  | .cmpZeroPage _ => .cmp
  | .cmpZeroPageX _ => .cmp
  | .cmpAbsolute _ => .cmp
  | .cmpAbsoluteX _ => .cmp
  | .cmpAbsoluteY _ => .cmp
  | .cmpIndirectX _ => .cmp
  | .cmpIndirectY _ => .cmp
  | .cpxImmediate _ => .cpx
  | .cpxZeroPage _ => .cpx
  | .cpxAbsolute _ => .cpx
  | .cpyImmediate _ => .cpy
  | .cpyZeroPage _ => .cpy
  | .cpyAbsolute _ => .cpy
  | .bpl _ => .bpl
  | .bmi _ => .bmi
  | .bvc _ => .bvc
  | .bvs _ => .bvs
  | .bcc _ => .bcc
  | .bcs _ => .bcs
  | .bne _ => .bne
  | .beq _ => .beq
  | .jmpAbsolute _ => .jmp
  | .jmpIndirect _ => .jmp
  | .jsr _ => .jsr
  | .rts => .rts
  | .pha => .pha
  | .pla => .pla
  | .php => .php
  | .plp => .plp
  | .brk => .brk
  | .rti => .rti
  | .nop => .nop
  | .clc => .clc
  | .sec => .sec
  | .cli => .cli
  | .sei => .sei
  | .clv => .clv
  | .cld => .cld
  | .sed => .sed
  | .unimplemented _ => .unimplemented

/-- A well-formed instruction's entry has its mnemonic, and its encoding has the entry's length. -/
def RowAgreement.Statement (i : Instr) : Prop :=
  i.WellFormed → i.spec.kind = kindOf i ∧ (encode i).length = i.spec.length

theorem RowAgreement.of_spec {i : Instr} {spec : InstructionSpec} (h : i.spec = spec)
    (h' : spec.kind = kindOf i ∧ (encode i).length = spec.length) : RowAgreement.Statement i :=
  fun _ => h ▸ h'

theorem RowAgreement.ldaImmediate (nn : Byte) : RowAgreement.Statement (.ldaImmediate nn) :=
  RowAgreement.of_spec (spec_ldaImmediate nn) ⟨rfl, rfl⟩
theorem RowAgreement.ldaZeroPage (nn : Byte) : RowAgreement.Statement (.ldaZeroPage nn) :=
  RowAgreement.of_spec (spec_ldaZeroPage nn) ⟨rfl, rfl⟩
theorem RowAgreement.ldaZeroPageX (nn : Byte) : RowAgreement.Statement (.ldaZeroPageX nn) :=
  RowAgreement.of_spec (spec_ldaZeroPageX nn) ⟨rfl, rfl⟩
theorem RowAgreement.ldaAbsolute (hhll : Word) : RowAgreement.Statement (.ldaAbsolute hhll) :=
  RowAgreement.of_spec (spec_ldaAbsolute hhll) ⟨rfl, rfl⟩
theorem RowAgreement.ldaAbsoluteX (hhll : Word) : RowAgreement.Statement (.ldaAbsoluteX hhll) :=
  RowAgreement.of_spec (spec_ldaAbsoluteX hhll) ⟨rfl, rfl⟩
theorem RowAgreement.ldaAbsoluteY (hhll : Word) : RowAgreement.Statement (.ldaAbsoluteY hhll) :=
  RowAgreement.of_spec (spec_ldaAbsoluteY hhll) ⟨rfl, rfl⟩
theorem RowAgreement.ldaIndirectX (nn : Byte) : RowAgreement.Statement (.ldaIndirectX nn) :=
  RowAgreement.of_spec (spec_ldaIndirectX nn) ⟨rfl, rfl⟩
theorem RowAgreement.ldaIndirectY (nn : Byte) : RowAgreement.Statement (.ldaIndirectY nn) :=
  RowAgreement.of_spec (spec_ldaIndirectY nn) ⟨rfl, rfl⟩
theorem RowAgreement.ldxImmediate (nn : Byte) : RowAgreement.Statement (.ldxImmediate nn) :=
  RowAgreement.of_spec (spec_ldxImmediate nn) ⟨rfl, rfl⟩
theorem RowAgreement.ldxZeroPage (nn : Byte) : RowAgreement.Statement (.ldxZeroPage nn) :=
  RowAgreement.of_spec (spec_ldxZeroPage nn) ⟨rfl, rfl⟩
theorem RowAgreement.ldxZeroPageY (nn : Byte) : RowAgreement.Statement (.ldxZeroPageY nn) :=
  RowAgreement.of_spec (spec_ldxZeroPageY nn) ⟨rfl, rfl⟩
theorem RowAgreement.ldxAbsolute (hhll : Word) : RowAgreement.Statement (.ldxAbsolute hhll) :=
  RowAgreement.of_spec (spec_ldxAbsolute hhll) ⟨rfl, rfl⟩
theorem RowAgreement.ldxAbsoluteY (hhll : Word) : RowAgreement.Statement (.ldxAbsoluteY hhll) :=
  RowAgreement.of_spec (spec_ldxAbsoluteY hhll) ⟨rfl, rfl⟩
theorem RowAgreement.ldyImmediate (nn : Byte) : RowAgreement.Statement (.ldyImmediate nn) :=
  RowAgreement.of_spec (spec_ldyImmediate nn) ⟨rfl, rfl⟩
theorem RowAgreement.ldyZeroPage (nn : Byte) : RowAgreement.Statement (.ldyZeroPage nn) :=
  RowAgreement.of_spec (spec_ldyZeroPage nn) ⟨rfl, rfl⟩
theorem RowAgreement.ldyZeroPageX (nn : Byte) : RowAgreement.Statement (.ldyZeroPageX nn) :=
  RowAgreement.of_spec (spec_ldyZeroPageX nn) ⟨rfl, rfl⟩
theorem RowAgreement.ldyAbsolute (hhll : Word) : RowAgreement.Statement (.ldyAbsolute hhll) :=
  RowAgreement.of_spec (spec_ldyAbsolute hhll) ⟨rfl, rfl⟩
theorem RowAgreement.ldyAbsoluteX (hhll : Word) : RowAgreement.Statement (.ldyAbsoluteX hhll) :=
  RowAgreement.of_spec (spec_ldyAbsoluteX hhll) ⟨rfl, rfl⟩
theorem RowAgreement.staZeroPage (nn : Byte) : RowAgreement.Statement (.staZeroPage nn) :=
  RowAgreement.of_spec (spec_staZeroPage nn) ⟨rfl, rfl⟩
theorem RowAgreement.staZeroPageX (nn : Byte) : RowAgreement.Statement (.staZeroPageX nn) :=
  RowAgreement.of_spec (spec_staZeroPageX nn) ⟨rfl, rfl⟩
theorem RowAgreement.staAbsolute (hhll : Word) : RowAgreement.Statement (.staAbsolute hhll) :=
  RowAgreement.of_spec (spec_staAbsolute hhll) ⟨rfl, rfl⟩
theorem RowAgreement.staAbsoluteX (hhll : Word) : RowAgreement.Statement (.staAbsoluteX hhll) :=
  RowAgreement.of_spec (spec_staAbsoluteX hhll) ⟨rfl, rfl⟩
theorem RowAgreement.staAbsoluteY (hhll : Word) : RowAgreement.Statement (.staAbsoluteY hhll) :=
  RowAgreement.of_spec (spec_staAbsoluteY hhll) ⟨rfl, rfl⟩
theorem RowAgreement.staIndirectX (nn : Byte) : RowAgreement.Statement (.staIndirectX nn) :=
  RowAgreement.of_spec (spec_staIndirectX nn) ⟨rfl, rfl⟩
theorem RowAgreement.staIndirectY (nn : Byte) : RowAgreement.Statement (.staIndirectY nn) :=
  RowAgreement.of_spec (spec_staIndirectY nn) ⟨rfl, rfl⟩
theorem RowAgreement.stxZeroPage (nn : Byte) : RowAgreement.Statement (.stxZeroPage nn) :=
  RowAgreement.of_spec (spec_stxZeroPage nn) ⟨rfl, rfl⟩
theorem RowAgreement.stxZeroPageY (nn : Byte) : RowAgreement.Statement (.stxZeroPageY nn) :=
  RowAgreement.of_spec (spec_stxZeroPageY nn) ⟨rfl, rfl⟩
theorem RowAgreement.stxAbsolute (hhll : Word) : RowAgreement.Statement (.stxAbsolute hhll) :=
  RowAgreement.of_spec (spec_stxAbsolute hhll) ⟨rfl, rfl⟩
theorem RowAgreement.styZeroPage (nn : Byte) : RowAgreement.Statement (.styZeroPage nn) :=
  RowAgreement.of_spec (spec_styZeroPage nn) ⟨rfl, rfl⟩
theorem RowAgreement.styZeroPageX (nn : Byte) : RowAgreement.Statement (.styZeroPageX nn) :=
  RowAgreement.of_spec (spec_styZeroPageX nn) ⟨rfl, rfl⟩
theorem RowAgreement.styAbsolute (hhll : Word) : RowAgreement.Statement (.styAbsolute hhll) :=
  RowAgreement.of_spec (spec_styAbsolute hhll) ⟨rfl, rfl⟩
theorem RowAgreement.tax : RowAgreement.Statement (.tax) :=
  RowAgreement.of_spec (spec_tax) ⟨rfl, rfl⟩
theorem RowAgreement.tay : RowAgreement.Statement (.tay) :=
  RowAgreement.of_spec (spec_tay) ⟨rfl, rfl⟩
theorem RowAgreement.txa : RowAgreement.Statement (.txa) :=
  RowAgreement.of_spec (spec_txa) ⟨rfl, rfl⟩
theorem RowAgreement.tya : RowAgreement.Statement (.tya) :=
  RowAgreement.of_spec (spec_tya) ⟨rfl, rfl⟩
theorem RowAgreement.tsx : RowAgreement.Statement (.tsx) :=
  RowAgreement.of_spec (spec_tsx) ⟨rfl, rfl⟩
theorem RowAgreement.txs : RowAgreement.Statement (.txs) :=
  RowAgreement.of_spec (spec_txs) ⟨rfl, rfl⟩
theorem RowAgreement.adcImmediate (nn : Byte) : RowAgreement.Statement (.adcImmediate nn) :=
  RowAgreement.of_spec (spec_adcImmediate nn) ⟨rfl, rfl⟩
theorem RowAgreement.adcZeroPage (nn : Byte) : RowAgreement.Statement (.adcZeroPage nn) :=
  RowAgreement.of_spec (spec_adcZeroPage nn) ⟨rfl, rfl⟩
theorem RowAgreement.adcZeroPageX (nn : Byte) : RowAgreement.Statement (.adcZeroPageX nn) :=
  RowAgreement.of_spec (spec_adcZeroPageX nn) ⟨rfl, rfl⟩
theorem RowAgreement.adcAbsolute (hhll : Word) : RowAgreement.Statement (.adcAbsolute hhll) :=
  RowAgreement.of_spec (spec_adcAbsolute hhll) ⟨rfl, rfl⟩
theorem RowAgreement.adcAbsoluteX (hhll : Word) : RowAgreement.Statement (.adcAbsoluteX hhll) :=
  RowAgreement.of_spec (spec_adcAbsoluteX hhll) ⟨rfl, rfl⟩
theorem RowAgreement.adcAbsoluteY (hhll : Word) : RowAgreement.Statement (.adcAbsoluteY hhll) :=
  RowAgreement.of_spec (spec_adcAbsoluteY hhll) ⟨rfl, rfl⟩
theorem RowAgreement.adcIndirectX (nn : Byte) : RowAgreement.Statement (.adcIndirectX nn) :=
  RowAgreement.of_spec (spec_adcIndirectX nn) ⟨rfl, rfl⟩
theorem RowAgreement.adcIndirectY (nn : Byte) : RowAgreement.Statement (.adcIndirectY nn) :=
  RowAgreement.of_spec (spec_adcIndirectY nn) ⟨rfl, rfl⟩
theorem RowAgreement.sbcImmediate (nn : Byte) : RowAgreement.Statement (.sbcImmediate nn) :=
  RowAgreement.of_spec (spec_sbcImmediate nn) ⟨rfl, rfl⟩
theorem RowAgreement.sbcZeroPage (nn : Byte) : RowAgreement.Statement (.sbcZeroPage nn) :=
  RowAgreement.of_spec (spec_sbcZeroPage nn) ⟨rfl, rfl⟩
theorem RowAgreement.sbcZeroPageX (nn : Byte) : RowAgreement.Statement (.sbcZeroPageX nn) :=
  RowAgreement.of_spec (spec_sbcZeroPageX nn) ⟨rfl, rfl⟩
theorem RowAgreement.sbcAbsolute (hhll : Word) : RowAgreement.Statement (.sbcAbsolute hhll) :=
  RowAgreement.of_spec (spec_sbcAbsolute hhll) ⟨rfl, rfl⟩
theorem RowAgreement.sbcAbsoluteX (hhll : Word) : RowAgreement.Statement (.sbcAbsoluteX hhll) :=
  RowAgreement.of_spec (spec_sbcAbsoluteX hhll) ⟨rfl, rfl⟩
theorem RowAgreement.sbcAbsoluteY (hhll : Word) : RowAgreement.Statement (.sbcAbsoluteY hhll) :=
  RowAgreement.of_spec (spec_sbcAbsoluteY hhll) ⟨rfl, rfl⟩
theorem RowAgreement.sbcIndirectX (nn : Byte) : RowAgreement.Statement (.sbcIndirectX nn) :=
  RowAgreement.of_spec (spec_sbcIndirectX nn) ⟨rfl, rfl⟩
theorem RowAgreement.sbcIndirectY (nn : Byte) : RowAgreement.Statement (.sbcIndirectY nn) :=
  RowAgreement.of_spec (spec_sbcIndirectY nn) ⟨rfl, rfl⟩
theorem RowAgreement.incZeroPage (nn : Byte) : RowAgreement.Statement (.incZeroPage nn) :=
  RowAgreement.of_spec (spec_incZeroPage nn) ⟨rfl, rfl⟩
theorem RowAgreement.incZeroPageX (nn : Byte) : RowAgreement.Statement (.incZeroPageX nn) :=
  RowAgreement.of_spec (spec_incZeroPageX nn) ⟨rfl, rfl⟩
theorem RowAgreement.incAbsolute (hhll : Word) : RowAgreement.Statement (.incAbsolute hhll) :=
  RowAgreement.of_spec (spec_incAbsolute hhll) ⟨rfl, rfl⟩
theorem RowAgreement.incAbsoluteX (hhll : Word) : RowAgreement.Statement (.incAbsoluteX hhll) :=
  RowAgreement.of_spec (spec_incAbsoluteX hhll) ⟨rfl, rfl⟩
theorem RowAgreement.decZeroPage (nn : Byte) : RowAgreement.Statement (.decZeroPage nn) :=
  RowAgreement.of_spec (spec_decZeroPage nn) ⟨rfl, rfl⟩
theorem RowAgreement.decZeroPageX (nn : Byte) : RowAgreement.Statement (.decZeroPageX nn) :=
  RowAgreement.of_spec (spec_decZeroPageX nn) ⟨rfl, rfl⟩
theorem RowAgreement.decAbsolute (hhll : Word) : RowAgreement.Statement (.decAbsolute hhll) :=
  RowAgreement.of_spec (spec_decAbsolute hhll) ⟨rfl, rfl⟩
theorem RowAgreement.decAbsoluteX (hhll : Word) : RowAgreement.Statement (.decAbsoluteX hhll) :=
  RowAgreement.of_spec (spec_decAbsoluteX hhll) ⟨rfl, rfl⟩
theorem RowAgreement.inx : RowAgreement.Statement (.inx) :=
  RowAgreement.of_spec (spec_inx) ⟨rfl, rfl⟩
theorem RowAgreement.iny : RowAgreement.Statement (.iny) :=
  RowAgreement.of_spec (spec_iny) ⟨rfl, rfl⟩
theorem RowAgreement.dex : RowAgreement.Statement (.dex) :=
  RowAgreement.of_spec (spec_dex) ⟨rfl, rfl⟩
theorem RowAgreement.dey : RowAgreement.Statement (.dey) :=
  RowAgreement.of_spec (spec_dey) ⟨rfl, rfl⟩
theorem RowAgreement.andImmediate (nn : Byte) : RowAgreement.Statement (.andImmediate nn) :=
  RowAgreement.of_spec (spec_andImmediate nn) ⟨rfl, rfl⟩
theorem RowAgreement.andZeroPage (nn : Byte) : RowAgreement.Statement (.andZeroPage nn) :=
  RowAgreement.of_spec (spec_andZeroPage nn) ⟨rfl, rfl⟩
theorem RowAgreement.andZeroPageX (nn : Byte) : RowAgreement.Statement (.andZeroPageX nn) :=
  RowAgreement.of_spec (spec_andZeroPageX nn) ⟨rfl, rfl⟩
theorem RowAgreement.andAbsolute (hhll : Word) : RowAgreement.Statement (.andAbsolute hhll) :=
  RowAgreement.of_spec (spec_andAbsolute hhll) ⟨rfl, rfl⟩
theorem RowAgreement.andAbsoluteX (hhll : Word) : RowAgreement.Statement (.andAbsoluteX hhll) :=
  RowAgreement.of_spec (spec_andAbsoluteX hhll) ⟨rfl, rfl⟩
theorem RowAgreement.andAbsoluteY (hhll : Word) : RowAgreement.Statement (.andAbsoluteY hhll) :=
  RowAgreement.of_spec (spec_andAbsoluteY hhll) ⟨rfl, rfl⟩
theorem RowAgreement.andIndirectX (nn : Byte) : RowAgreement.Statement (.andIndirectX nn) :=
  RowAgreement.of_spec (spec_andIndirectX nn) ⟨rfl, rfl⟩
theorem RowAgreement.andIndirectY (nn : Byte) : RowAgreement.Statement (.andIndirectY nn) :=
  RowAgreement.of_spec (spec_andIndirectY nn) ⟨rfl, rfl⟩
theorem RowAgreement.oraImmediate (nn : Byte) : RowAgreement.Statement (.oraImmediate nn) :=
  RowAgreement.of_spec (spec_oraImmediate nn) ⟨rfl, rfl⟩
theorem RowAgreement.oraZeroPage (nn : Byte) : RowAgreement.Statement (.oraZeroPage nn) :=
  RowAgreement.of_spec (spec_oraZeroPage nn) ⟨rfl, rfl⟩
theorem RowAgreement.oraZeroPageX (nn : Byte) : RowAgreement.Statement (.oraZeroPageX nn) :=
  RowAgreement.of_spec (spec_oraZeroPageX nn) ⟨rfl, rfl⟩
theorem RowAgreement.oraAbsolute (hhll : Word) : RowAgreement.Statement (.oraAbsolute hhll) :=
  RowAgreement.of_spec (spec_oraAbsolute hhll) ⟨rfl, rfl⟩
theorem RowAgreement.oraAbsoluteX (hhll : Word) : RowAgreement.Statement (.oraAbsoluteX hhll) :=
  RowAgreement.of_spec (spec_oraAbsoluteX hhll) ⟨rfl, rfl⟩
theorem RowAgreement.oraAbsoluteY (hhll : Word) : RowAgreement.Statement (.oraAbsoluteY hhll) :=
  RowAgreement.of_spec (spec_oraAbsoluteY hhll) ⟨rfl, rfl⟩
theorem RowAgreement.oraIndirectX (nn : Byte) : RowAgreement.Statement (.oraIndirectX nn) :=
  RowAgreement.of_spec (spec_oraIndirectX nn) ⟨rfl, rfl⟩
theorem RowAgreement.oraIndirectY (nn : Byte) : RowAgreement.Statement (.oraIndirectY nn) :=
  RowAgreement.of_spec (spec_oraIndirectY nn) ⟨rfl, rfl⟩
theorem RowAgreement.eorImmediate (nn : Byte) : RowAgreement.Statement (.eorImmediate nn) :=
  RowAgreement.of_spec (spec_eorImmediate nn) ⟨rfl, rfl⟩
theorem RowAgreement.eorZeroPage (nn : Byte) : RowAgreement.Statement (.eorZeroPage nn) :=
  RowAgreement.of_spec (spec_eorZeroPage nn) ⟨rfl, rfl⟩
theorem RowAgreement.eorZeroPageX (nn : Byte) : RowAgreement.Statement (.eorZeroPageX nn) :=
  RowAgreement.of_spec (spec_eorZeroPageX nn) ⟨rfl, rfl⟩
theorem RowAgreement.eorAbsolute (hhll : Word) : RowAgreement.Statement (.eorAbsolute hhll) :=
  RowAgreement.of_spec (spec_eorAbsolute hhll) ⟨rfl, rfl⟩
theorem RowAgreement.eorAbsoluteX (hhll : Word) : RowAgreement.Statement (.eorAbsoluteX hhll) :=
  RowAgreement.of_spec (spec_eorAbsoluteX hhll) ⟨rfl, rfl⟩
theorem RowAgreement.eorAbsoluteY (hhll : Word) : RowAgreement.Statement (.eorAbsoluteY hhll) :=
  RowAgreement.of_spec (spec_eorAbsoluteY hhll) ⟨rfl, rfl⟩
theorem RowAgreement.eorIndirectX (nn : Byte) : RowAgreement.Statement (.eorIndirectX nn) :=
  RowAgreement.of_spec (spec_eorIndirectX nn) ⟨rfl, rfl⟩
theorem RowAgreement.eorIndirectY (nn : Byte) : RowAgreement.Statement (.eorIndirectY nn) :=
  RowAgreement.of_spec (spec_eorIndirectY nn) ⟨rfl, rfl⟩
theorem RowAgreement.bitZeroPage (nn : Byte) : RowAgreement.Statement (.bitZeroPage nn) :=
  RowAgreement.of_spec (spec_bitZeroPage nn) ⟨rfl, rfl⟩
theorem RowAgreement.bitAbsolute (hhll : Word) : RowAgreement.Statement (.bitAbsolute hhll) :=
  RowAgreement.of_spec (spec_bitAbsolute hhll) ⟨rfl, rfl⟩
theorem RowAgreement.aslZeroPage (nn : Byte) : RowAgreement.Statement (.aslZeroPage nn) :=
  RowAgreement.of_spec (spec_aslZeroPage nn) ⟨rfl, rfl⟩
theorem RowAgreement.aslZeroPageX (nn : Byte) : RowAgreement.Statement (.aslZeroPageX nn) :=
  RowAgreement.of_spec (spec_aslZeroPageX nn) ⟨rfl, rfl⟩
theorem RowAgreement.aslAbsolute (hhll : Word) : RowAgreement.Statement (.aslAbsolute hhll) :=
  RowAgreement.of_spec (spec_aslAbsolute hhll) ⟨rfl, rfl⟩
theorem RowAgreement.aslAbsoluteX (hhll : Word) : RowAgreement.Statement (.aslAbsoluteX hhll) :=
  RowAgreement.of_spec (spec_aslAbsoluteX hhll) ⟨rfl, rfl⟩
theorem RowAgreement.aslAccumulator : RowAgreement.Statement (.aslAccumulator) :=
  RowAgreement.of_spec (spec_aslAccumulator) ⟨rfl, rfl⟩
theorem RowAgreement.lsrZeroPage (nn : Byte) : RowAgreement.Statement (.lsrZeroPage nn) :=
  RowAgreement.of_spec (spec_lsrZeroPage nn) ⟨rfl, rfl⟩
theorem RowAgreement.lsrZeroPageX (nn : Byte) : RowAgreement.Statement (.lsrZeroPageX nn) :=
  RowAgreement.of_spec (spec_lsrZeroPageX nn) ⟨rfl, rfl⟩
theorem RowAgreement.lsrAbsolute (hhll : Word) : RowAgreement.Statement (.lsrAbsolute hhll) :=
  RowAgreement.of_spec (spec_lsrAbsolute hhll) ⟨rfl, rfl⟩
theorem RowAgreement.lsrAbsoluteX (hhll : Word) : RowAgreement.Statement (.lsrAbsoluteX hhll) :=
  RowAgreement.of_spec (spec_lsrAbsoluteX hhll) ⟨rfl, rfl⟩
theorem RowAgreement.lsrAccumulator : RowAgreement.Statement (.lsrAccumulator) :=
  RowAgreement.of_spec (spec_lsrAccumulator) ⟨rfl, rfl⟩
theorem RowAgreement.rolZeroPage (nn : Byte) : RowAgreement.Statement (.rolZeroPage nn) :=
  RowAgreement.of_spec (spec_rolZeroPage nn) ⟨rfl, rfl⟩
theorem RowAgreement.rolZeroPageX (nn : Byte) : RowAgreement.Statement (.rolZeroPageX nn) :=
  RowAgreement.of_spec (spec_rolZeroPageX nn) ⟨rfl, rfl⟩
theorem RowAgreement.rolAbsolute (hhll : Word) : RowAgreement.Statement (.rolAbsolute hhll) :=
  RowAgreement.of_spec (spec_rolAbsolute hhll) ⟨rfl, rfl⟩
theorem RowAgreement.rolAbsoluteX (hhll : Word) : RowAgreement.Statement (.rolAbsoluteX hhll) :=
  RowAgreement.of_spec (spec_rolAbsoluteX hhll) ⟨rfl, rfl⟩
theorem RowAgreement.rolAccumulator : RowAgreement.Statement (.rolAccumulator) :=
  RowAgreement.of_spec (spec_rolAccumulator) ⟨rfl, rfl⟩
theorem RowAgreement.rorZeroPage (nn : Byte) : RowAgreement.Statement (.rorZeroPage nn) :=
  RowAgreement.of_spec (spec_rorZeroPage nn) ⟨rfl, rfl⟩
theorem RowAgreement.rorZeroPageX (nn : Byte) : RowAgreement.Statement (.rorZeroPageX nn) :=
  RowAgreement.of_spec (spec_rorZeroPageX nn) ⟨rfl, rfl⟩
theorem RowAgreement.rorAbsolute (hhll : Word) : RowAgreement.Statement (.rorAbsolute hhll) :=
  RowAgreement.of_spec (spec_rorAbsolute hhll) ⟨rfl, rfl⟩
theorem RowAgreement.rorAbsoluteX (hhll : Word) : RowAgreement.Statement (.rorAbsoluteX hhll) :=
  RowAgreement.of_spec (spec_rorAbsoluteX hhll) ⟨rfl, rfl⟩
theorem RowAgreement.rorAccumulator : RowAgreement.Statement (.rorAccumulator) :=
  RowAgreement.of_spec (spec_rorAccumulator) ⟨rfl, rfl⟩
theorem RowAgreement.cmpImmediate (nn : Byte) : RowAgreement.Statement (.cmpImmediate nn) :=
  RowAgreement.of_spec (spec_cmpImmediate nn) ⟨rfl, rfl⟩
theorem RowAgreement.cmpZeroPage (nn : Byte) : RowAgreement.Statement (.cmpZeroPage nn) :=
  RowAgreement.of_spec (spec_cmpZeroPage nn) ⟨rfl, rfl⟩
theorem RowAgreement.cmpZeroPageX (nn : Byte) : RowAgreement.Statement (.cmpZeroPageX nn) :=
  RowAgreement.of_spec (spec_cmpZeroPageX nn) ⟨rfl, rfl⟩
theorem RowAgreement.cmpAbsolute (hhll : Word) : RowAgreement.Statement (.cmpAbsolute hhll) :=
  RowAgreement.of_spec (spec_cmpAbsolute hhll) ⟨rfl, rfl⟩
theorem RowAgreement.cmpAbsoluteX (hhll : Word) : RowAgreement.Statement (.cmpAbsoluteX hhll) :=
  RowAgreement.of_spec (spec_cmpAbsoluteX hhll) ⟨rfl, rfl⟩
theorem RowAgreement.cmpAbsoluteY (hhll : Word) : RowAgreement.Statement (.cmpAbsoluteY hhll) :=
  RowAgreement.of_spec (spec_cmpAbsoluteY hhll) ⟨rfl, rfl⟩
theorem RowAgreement.cmpIndirectX (nn : Byte) : RowAgreement.Statement (.cmpIndirectX nn) :=
  RowAgreement.of_spec (spec_cmpIndirectX nn) ⟨rfl, rfl⟩
theorem RowAgreement.cmpIndirectY (nn : Byte) : RowAgreement.Statement (.cmpIndirectY nn) :=
  RowAgreement.of_spec (spec_cmpIndirectY nn) ⟨rfl, rfl⟩
theorem RowAgreement.cpxImmediate (nn : Byte) : RowAgreement.Statement (.cpxImmediate nn) :=
  RowAgreement.of_spec (spec_cpxImmediate nn) ⟨rfl, rfl⟩
theorem RowAgreement.cpxZeroPage (nn : Byte) : RowAgreement.Statement (.cpxZeroPage nn) :=
  RowAgreement.of_spec (spec_cpxZeroPage nn) ⟨rfl, rfl⟩
theorem RowAgreement.cpxAbsolute (hhll : Word) : RowAgreement.Statement (.cpxAbsolute hhll) :=
  RowAgreement.of_spec (spec_cpxAbsolute hhll) ⟨rfl, rfl⟩
theorem RowAgreement.cpyImmediate (nn : Byte) : RowAgreement.Statement (.cpyImmediate nn) :=
  RowAgreement.of_spec (spec_cpyImmediate nn) ⟨rfl, rfl⟩
theorem RowAgreement.cpyZeroPage (nn : Byte) : RowAgreement.Statement (.cpyZeroPage nn) :=
  RowAgreement.of_spec (spec_cpyZeroPage nn) ⟨rfl, rfl⟩
theorem RowAgreement.cpyAbsolute (hhll : Word) : RowAgreement.Statement (.cpyAbsolute hhll) :=
  RowAgreement.of_spec (spec_cpyAbsolute hhll) ⟨rfl, rfl⟩
theorem RowAgreement.bpl (nn : Byte) : RowAgreement.Statement (.bpl nn) :=
  RowAgreement.of_spec (spec_bpl nn) ⟨rfl, rfl⟩
theorem RowAgreement.bmi (nn : Byte) : RowAgreement.Statement (.bmi nn) :=
  RowAgreement.of_spec (spec_bmi nn) ⟨rfl, rfl⟩
theorem RowAgreement.bvc (nn : Byte) : RowAgreement.Statement (.bvc nn) :=
  RowAgreement.of_spec (spec_bvc nn) ⟨rfl, rfl⟩
theorem RowAgreement.bvs (nn : Byte) : RowAgreement.Statement (.bvs nn) :=
  RowAgreement.of_spec (spec_bvs nn) ⟨rfl, rfl⟩
theorem RowAgreement.bcc (nn : Byte) : RowAgreement.Statement (.bcc nn) :=
  RowAgreement.of_spec (spec_bcc nn) ⟨rfl, rfl⟩
theorem RowAgreement.bcs (nn : Byte) : RowAgreement.Statement (.bcs nn) :=
  RowAgreement.of_spec (spec_bcs nn) ⟨rfl, rfl⟩
theorem RowAgreement.bne (nn : Byte) : RowAgreement.Statement (.bne nn) :=
  RowAgreement.of_spec (spec_bne nn) ⟨rfl, rfl⟩
theorem RowAgreement.beq (nn : Byte) : RowAgreement.Statement (.beq nn) :=
  RowAgreement.of_spec (spec_beq nn) ⟨rfl, rfl⟩
theorem RowAgreement.jmpAbsolute (hhll : Word) : RowAgreement.Statement (.jmpAbsolute hhll) :=
  RowAgreement.of_spec (spec_jmpAbsolute hhll) ⟨rfl, rfl⟩
theorem RowAgreement.jmpIndirect (hhll : Word) : RowAgreement.Statement (.jmpIndirect hhll) :=
  RowAgreement.of_spec (spec_jmpIndirect hhll) ⟨rfl, rfl⟩
theorem RowAgreement.jsr (hhll : Word) : RowAgreement.Statement (.jsr hhll) :=
  RowAgreement.of_spec (spec_jsr hhll) ⟨rfl, rfl⟩
theorem RowAgreement.rts : RowAgreement.Statement (.rts) :=
  RowAgreement.of_spec (spec_rts) ⟨rfl, rfl⟩
theorem RowAgreement.pha : RowAgreement.Statement (.pha) :=
  RowAgreement.of_spec (spec_pha) ⟨rfl, rfl⟩
theorem RowAgreement.pla : RowAgreement.Statement (.pla) :=
  RowAgreement.of_spec (spec_pla) ⟨rfl, rfl⟩
theorem RowAgreement.php : RowAgreement.Statement (.php) :=
  RowAgreement.of_spec (spec_php) ⟨rfl, rfl⟩
theorem RowAgreement.plp : RowAgreement.Statement (.plp) :=
  RowAgreement.of_spec (spec_plp) ⟨rfl, rfl⟩
theorem RowAgreement.brk : RowAgreement.Statement (.brk) :=
  RowAgreement.of_spec (spec_brk) ⟨rfl, rfl⟩
theorem RowAgreement.rti : RowAgreement.Statement (.rti) :=
  RowAgreement.of_spec (spec_rti) ⟨rfl, rfl⟩
theorem RowAgreement.nop : RowAgreement.Statement (.nop) :=
  RowAgreement.of_spec (spec_nop) ⟨rfl, rfl⟩
theorem RowAgreement.clc : RowAgreement.Statement (.clc) :=
  RowAgreement.of_spec (spec_clc) ⟨rfl, rfl⟩
theorem RowAgreement.sec : RowAgreement.Statement (.sec) :=
  RowAgreement.of_spec (spec_sec) ⟨rfl, rfl⟩
theorem RowAgreement.cli : RowAgreement.Statement (.cli) :=
  RowAgreement.of_spec (spec_cli) ⟨rfl, rfl⟩
theorem RowAgreement.sei : RowAgreement.Statement (.sei) :=
  RowAgreement.of_spec (spec_sei) ⟨rfl, rfl⟩
theorem RowAgreement.clv : RowAgreement.Statement (.clv) :=
  RowAgreement.of_spec (spec_clv) ⟨rfl, rfl⟩
theorem RowAgreement.cld : RowAgreement.Statement (.cld) :=
  RowAgreement.of_spec (spec_cld) ⟨rfl, rfl⟩
theorem RowAgreement.sed : RowAgreement.Statement (.sed) :=
  RowAgreement.of_spec (spec_sed) ⟨rfl, rfl⟩

theorem RowAgreement.unimplemented (opcode : Byte) : RowAgreement.Statement (.unimplemented opcode) := fun h =>
  RowAgreement.of_spec (decodeSpec_undocumented (mem_undocumented_of_wellFormed h)) ⟨rfl, rfl⟩ h

end Sys2Proof.Laws
end

