-- ==== Sys2Proof/Laws/Session.lean ====
section
/-! SUPPORT. What `storeCells` leaves: it is how `INIT_MEM` reaches storage (00_scope.md R7; 70_reset_and_hazards.md R341). -/

namespace Sys2Proof.Machine

/-- The canonical form is kept. -/
theorem storeCells_wf : ∀ (cells : List (Word × Byte)) {m : Memory}, Memory.wf m = true →
    Memory.wf (storeCells m cells) = true
  | [], _, h => h
  | (a, v) :: rest, _, h => storeCells_wf rest (Memory.wf_set h a.toNat v a.isLt)

/-- A cell that no entry names keeps its content. -/
theorem storeCells_get_other {k : Nat} : ∀ (cells : List (Word × Byte)) (m : Memory),
    (∀ c ∈ cells, c.1.toNat ≠ k) → Memory.get (storeCells m cells) k = Memory.get m k
  | [], _, _ => rfl
  | (a, v) :: rest, m, h => by
    have ha : k ≠ a.toNat := Ne.symm (h (a, v) (List.mem_cons_self ..))
    rw [storeCells, storeCells_get_other rest _ fun c hc => h c (List.mem_cons_of_mem _ hc)]
    exact Memory.get_set_other m ha v

/-- The last entry that names a cell decides its content. -/
theorem storeCells_get_last (before after : List (Word × Byte)) (a : Word) (v : Byte) {m : Memory}
    (hm : Memory.wf m = true) (h : ∀ c ∈ after, c.1.toNat ≠ a.toNat) :
    Memory.get (storeCells m (before ++ (a, v) :: after)) a.toNat = v := by
  induction before generalizing m with
  | nil =>
    rw [List.nil_append, storeCells, storeCells_get_other after _ h]
    exact Memory.get_set_same hm a.toNat v
  | cons c before ih =>
    rw [List.cons_append, storeCells]
    exact ih (Memory.wf_set hm c.1.toNat c.2 c.1.isLt)

end Sys2Proof.Machine
end

