-- ==== Sys2Proof/Tests/Slice0.lean ====
section
/-! SUPPORT. Tests: the well-formedness smoke, a word of every opcode byte written out from the encoding column of
spec/opcode_table.json, the vectors of spec/95_test_vectors.md (their expected results are the spec's), and for each
statement with hypotheses a state and operands that meet them. -/

namespace Sys2Proof.Tests

open Sys2Proof.Machine Sys2Proof.Claims

-- One theorem after the other: each waiting theorem would hold a thread and its stack.
set_option Elab.async false

/-! ### Well-formedness: the ill-formed term of the one check there is -/

theorem test_documented_byte_is_not_unimplemented : (Instr.unimplemented 0xA9).wellFormed = false := by decide
theorem test_undocumented_byte_is_well_formed : (Instr.unimplemented 0x02).wellFormed = true := by decide

/-! ### Decoding: each word's opcode byte in binary, as the encoding column has it -/

/-- The word, followed by another byte, decodes to the instruction and leaves that byte; it is the instruction's
encoding. -/
def decodesTo (w : List Byte × Instr) : Bool :=
  decide (decode (w.1 ++ [0x5A]) = .instr w.2 [0x5A]) && decide (encode w.2 = w.1) && w.2.wellFormed


/-- Opcode bytes 0x00 to 0x1F. -/
def words0 : List (List Byte × Instr) := [
  ([0b00000000], .brk),
  ([0b00000001, 0x9C], .oraIndirectX 0x9C),
  ([0b00000101, 0x9C], .oraZeroPage 0x9C),
  ([0b00000110, 0x9C], .aslZeroPage 0x9C),
  ([0b00001000], .php),
  ([0b00001001, 0x9C], .oraImmediate 0x9C),
  ([0b00001010], .aslAccumulator),
  ([0b00001101, 0x34, 0xE2], .oraAbsolute 0xE234),
  ([0b00001110, 0x34, 0xE2], .aslAbsolute 0xE234),
  ([0b00010000, 0x9C], .bpl 0x9C),
  ([0b00010001, 0x9C], .oraIndirectY 0x9C),
  ([0b00010101, 0x9C], .oraZeroPageX 0x9C),
  ([0b00010110, 0x9C], .aslZeroPageX 0x9C),
  ([0b00011000], .clc),
  ([0b00011001, 0x34, 0xE2], .oraAbsoluteY 0xE234),
  ([0b00011101, 0x34, 0xE2], .oraAbsoluteX 0xE234),
  ([0b00011110, 0x34, 0xE2], .aslAbsoluteX 0xE234)]

theorem test_decode_00 : words0.all decodesTo = true := by decide +kernel

/-- Opcode bytes 0x20 to 0x3F. -/
def words1 : List (List Byte × Instr) := [
  ([0b00100000, 0x34, 0xE2], .jsr 0xE234),
  ([0b00100001, 0x9C], .andIndirectX 0x9C),
  ([0b00100100, 0x9C], .bitZeroPage 0x9C),
  ([0b00100101, 0x9C], .andZeroPage 0x9C),
  ([0b00100110, 0x9C], .rolZeroPage 0x9C),
  ([0b00101000], .plp),
  ([0b00101001, 0x9C], .andImmediate 0x9C),
  ([0b00101010], .rolAccumulator),
  ([0b00101100, 0x34, 0xE2], .bitAbsolute 0xE234),
  ([0b00101101, 0x34, 0xE2], .andAbsolute 0xE234),
  ([0b00101110, 0x34, 0xE2], .rolAbsolute 0xE234),
  ([0b00110000, 0x9C], .bmi 0x9C),
  ([0b00110001, 0x9C], .andIndirectY 0x9C),
  ([0b00110101, 0x9C], .andZeroPageX 0x9C),
  ([0b00110110, 0x9C], .rolZeroPageX 0x9C),
  ([0b00111000], .sec),
  ([0b00111001, 0x34, 0xE2], .andAbsoluteY 0xE234),
  ([0b00111101, 0x34, 0xE2], .andAbsoluteX 0xE234),
  ([0b00111110, 0x34, 0xE2], .rolAbsoluteX 0xE234)]

theorem test_decode_20 : words1.all decodesTo = true := by decide +kernel

/-- Opcode bytes 0x40 to 0x5F. -/
def words2 : List (List Byte × Instr) := [
  ([0b01000000], .rti),
  ([0b01000001, 0x9C], .eorIndirectX 0x9C),
  ([0b01000101, 0x9C], .eorZeroPage 0x9C),
  ([0b01000110, 0x9C], .lsrZeroPage 0x9C),
  ([0b01001000], .pha),
  ([0b01001001, 0x9C], .eorImmediate 0x9C),
  ([0b01001010], .lsrAccumulator),
  ([0b01001100, 0x34, 0xE2], .jmpAbsolute 0xE234),
  ([0b01001101, 0x34, 0xE2], .eorAbsolute 0xE234),
  ([0b01001110, 0x34, 0xE2], .lsrAbsolute 0xE234),
  ([0b01010000, 0x9C], .bvc 0x9C),
  ([0b01010001, 0x9C], .eorIndirectY 0x9C),
  ([0b01010101, 0x9C], .eorZeroPageX 0x9C),
  ([0b01010110, 0x9C], .lsrZeroPageX 0x9C),
  ([0b01011000], .cli),
  ([0b01011001, 0x34, 0xE2], .eorAbsoluteY 0xE234),
  ([0b01011101, 0x34, 0xE2], .eorAbsoluteX 0xE234),
  ([0b01011110, 0x34, 0xE2], .lsrAbsoluteX 0xE234)]

theorem test_decode_40 : words2.all decodesTo = true := by decide +kernel

/-- Opcode bytes 0x60 to 0x7F. -/
def words3 : List (List Byte × Instr) := [
  ([0b01100000], .rts),
  ([0b01100001, 0x9C], .adcIndirectX 0x9C),
  ([0b01100101, 0x9C], .adcZeroPage 0x9C),
  ([0b01100110, 0x9C], .rorZeroPage 0x9C),
  ([0b01101000], .pla),
  ([0b01101001, 0x9C], .adcImmediate 0x9C),
  ([0b01101010], .rorAccumulator),
  ([0b01101100, 0x34, 0xE2], .jmpIndirect 0xE234),
  ([0b01101101, 0x34, 0xE2], .adcAbsolute 0xE234),
  ([0b01101110, 0x34, 0xE2], .rorAbsolute 0xE234),
  ([0b01110000, 0x9C], .bvs 0x9C),
  ([0b01110001, 0x9C], .adcIndirectY 0x9C),
  ([0b01110101, 0x9C], .adcZeroPageX 0x9C),
  ([0b01110110, 0x9C], .rorZeroPageX 0x9C),
  ([0b01111000], .sei),
  ([0b01111001, 0x34, 0xE2], .adcAbsoluteY 0xE234),
  ([0b01111101, 0x34, 0xE2], .adcAbsoluteX 0xE234),
  ([0b01111110, 0x34, 0xE2], .rorAbsoluteX 0xE234)]

theorem test_decode_60 : words3.all decodesTo = true := by decide +kernel

/-- Opcode bytes 0x80 to 0x9F. -/
def words4 : List (List Byte × Instr) := [
  ([0b10000001, 0x9C], .staIndirectX 0x9C),
  ([0b10000100, 0x9C], .styZeroPage 0x9C),
  ([0b10000101, 0x9C], .staZeroPage 0x9C),
  ([0b10000110, 0x9C], .stxZeroPage 0x9C),
  ([0b10001000], .dey),
  ([0b10001010], .txa),
  ([0b10001100, 0x34, 0xE2], .styAbsolute 0xE234),
  ([0b10001101, 0x34, 0xE2], .staAbsolute 0xE234),
  ([0b10001110, 0x34, 0xE2], .stxAbsolute 0xE234),
  ([0b10010000, 0x9C], .bcc 0x9C),
  ([0b10010001, 0x9C], .staIndirectY 0x9C),
  ([0b10010100, 0x9C], .styZeroPageX 0x9C),
  ([0b10010101, 0x9C], .staZeroPageX 0x9C),
  ([0b10010110, 0x9C], .stxZeroPageY 0x9C),
  ([0b10011000], .tya),
  ([0b10011001, 0x34, 0xE2], .staAbsoluteY 0xE234),
  ([0b10011010], .txs),
  ([0b10011101, 0x34, 0xE2], .staAbsoluteX 0xE234)]

theorem test_decode_80 : words4.all decodesTo = true := by decide +kernel

/-- Opcode bytes 0xA0 to 0xBF. -/
def words5 : List (List Byte × Instr) := [
  ([0b10100000, 0x9C], .ldyImmediate 0x9C),
  ([0b10100001, 0x9C], .ldaIndirectX 0x9C),
  ([0b10100010, 0x9C], .ldxImmediate 0x9C),
  ([0b10100100, 0x9C], .ldyZeroPage 0x9C),
  ([0b10100101, 0x9C], .ldaZeroPage 0x9C),
  ([0b10100110, 0x9C], .ldxZeroPage 0x9C),
  ([0b10101000], .tay),
  ([0b10101001, 0x9C], .ldaImmediate 0x9C),
  ([0b10101010], .tax),
  ([0b10101100, 0x34, 0xE2], .ldyAbsolute 0xE234),
  ([0b10101101, 0x34, 0xE2], .ldaAbsolute 0xE234),
  ([0b10101110, 0x34, 0xE2], .ldxAbsolute 0xE234),
  ([0b10110000, 0x9C], .bcs 0x9C),
  ([0b10110001, 0x9C], .ldaIndirectY 0x9C),
  ([0b10110100, 0x9C], .ldyZeroPageX 0x9C),
  ([0b10110101, 0x9C], .ldaZeroPageX 0x9C),
  ([0b10110110, 0x9C], .ldxZeroPageY 0x9C),
  ([0b10111000], .clv),
  ([0b10111001, 0x34, 0xE2], .ldaAbsoluteY 0xE234),
  ([0b10111010], .tsx),
  ([0b10111100, 0x34, 0xE2], .ldyAbsoluteX 0xE234),
  ([0b10111101, 0x34, 0xE2], .ldaAbsoluteX 0xE234),
  ([0b10111110, 0x34, 0xE2], .ldxAbsoluteY 0xE234)]

theorem test_decode_a0 : words5.all decodesTo = true := by decide +kernel

/-- Opcode bytes 0xC0 to 0xDF. -/
def words6 : List (List Byte × Instr) := [
  ([0b11000000, 0x9C], .cpyImmediate 0x9C),
  ([0b11000001, 0x9C], .cmpIndirectX 0x9C),
  ([0b11000100, 0x9C], .cpyZeroPage 0x9C),
  ([0b11000101, 0x9C], .cmpZeroPage 0x9C),
  ([0b11000110, 0x9C], .decZeroPage 0x9C),
  ([0b11001000], .iny),
  ([0b11001001, 0x9C], .cmpImmediate 0x9C),
  ([0b11001010], .dex),
  ([0b11001100, 0x34, 0xE2], .cpyAbsolute 0xE234),
  ([0b11001101, 0x34, 0xE2], .cmpAbsolute 0xE234),
  ([0b11001110, 0x34, 0xE2], .decAbsolute 0xE234),
  ([0b11010000, 0x9C], .bne 0x9C),
  ([0b11010001, 0x9C], .cmpIndirectY 0x9C),
  ([0b11010101, 0x9C], .cmpZeroPageX 0x9C),
  ([0b11010110, 0x9C], .decZeroPageX 0x9C),
  ([0b11011000], .cld),
  ([0b11011001, 0x34, 0xE2], .cmpAbsoluteY 0xE234),
  ([0b11011101, 0x34, 0xE2], .cmpAbsoluteX 0xE234),
  ([0b11011110, 0x34, 0xE2], .decAbsoluteX 0xE234)]

theorem test_decode_c0 : words6.all decodesTo = true := by decide +kernel

/-- Opcode bytes 0xE0 to 0xFF. -/
def words7 : List (List Byte × Instr) := [
  ([0b11100000, 0x9C], .cpxImmediate 0x9C),
  ([0b11100001, 0x9C], .sbcIndirectX 0x9C),
  ([0b11100100, 0x9C], .cpxZeroPage 0x9C),
  ([0b11100101, 0x9C], .sbcZeroPage 0x9C),
  ([0b11100110, 0x9C], .incZeroPage 0x9C),
  ([0b11101000], .inx),
  ([0b11101001, 0x9C], .sbcImmediate 0x9C),
  ([0b11101010], .nop),
  ([0b11101100, 0x34, 0xE2], .cpxAbsolute 0xE234),
  ([0b11101101, 0x34, 0xE2], .sbcAbsolute 0xE234),
  ([0b11101110, 0x34, 0xE2], .incAbsolute 0xE234),
  ([0b11110000, 0x9C], .beq 0x9C),
  ([0b11110001, 0x9C], .sbcIndirectY 0x9C),
  ([0b11110101, 0x9C], .sbcZeroPageX 0x9C),
  ([0b11110110, 0x9C], .incZeroPageX 0x9C),
  ([0b11111000], .sed),
  ([0b11111001, 0x34, 0xE2], .sbcAbsoluteY 0xE234),
  ([0b11111101, 0x34, 0xE2], .sbcAbsoluteX 0xE234),
  ([0b11111110, 0x34, 0xE2], .incAbsoluteX 0xE234)]

theorem test_decode_e0 : words7.all decodesTo = true := by decide +kernel

/-- Every opcode byte with a meaning has its word above. -/
theorem test_decode_covers_the_map :
    (words0 ++ words1 ++ words2 ++ words3 ++ words4 ++ words5 ++ words6 ++ words7).map (fun w => w.2.opcode) =
      opcodeMap.map OpcodeRow.opcode := by rfl
theorem test_decode_undocumented :
    (undocumentedOpcodes.all fun op => decide (decode [op, 0x34] = .instr (.unimplemented op) [0x34])) = true := by
  decide +kernel
theorem test_decode_missing_operand : decode [0xAD, 0x34] = .rejected (.missingOperand 0xAD) := by decide +kernel
theorem test_decode_no_bytes : decode [] = .rejected .noBytes := by decide

/-! ### The host's two readings of a table word -/

theorem test_table_word : decodeTableWord 24 0x1234BD = some (.ldaAbsoluteX 0x1234) := by decide +kernel
theorem test_table_word_short : decodeTableWord 8 0xBD = some (.ldaAbsoluteX 0x0000) := by decide +kernel
theorem test_fetch_word :
    step (State.reset.withFetchWord 16 0x10A9) = exec (.ldaImmediate 0x10) (State.reset.withFetchWord 16 0x10A9) := by
  rfl
theorem test_fetch_word_after_halt :
    step ((State.reset.latchHalt 0x02).withFetchWord 8 0xEA) = exec .nop ((State.reset.latchHalt 0x02).withFetchWord 8 0xEA) := by
  rfl

/-! ### The vectors of 95_test_vectors.md, sections 2.1 to 2.9: one step each -/

/-- A vector: the bytes at PC, the registers and memory before, what is requested, and after the step the registers, the
cycles and the writes. -/
structure Vector where
  bytes : List Byte
  pc : Word := 0x8000
  a : Byte := 0x00
  x : Byte := 0x00
  y : Byte := 0x00
  sp : Byte := 0xFD
  p : Byte := 0x24
  mem : List (Word × Byte) := []
  nmi : Bool := false
  irq : Bool := false
  after : Inspection
  writes : List (Word × Byte) := []

/-- The state before the step, CYC zero. -/
def Vector.before (v : Vector) : State :=
  { State.reset with
    pc := v.pc, a := v.a, x := v.x, y := v.y, sp := v.sp, p := v.p, cyc := 0,
    nmiPending := v.nmi, irqPending := v.irq,
    mem := loadImage {} (storeCells [] v.mem) v.pc v.bytes }

/-- One step gives the registers, the cycles and the memory of the vector. -/
def Vector.passes (v : Vector) : Bool :=
  match step v.before with
  | .next t => decide (t.inspect = v.after) && decide (t.mem = storeCells v.before.mem v.writes)
  | _ => false


/-- Section 2.1: V1 to V17. -/
def addressingVectors : List Vector :=
  [
  { bytes := [0xA9, 0x10], after := ⟨0x10, 0x00, 0x00, 0xFD, 0x8002, 0x24, 2⟩ },
  { bytes := [0xA5, 0x10], mem := [(0x0010, 0x7F)], after := ⟨0x7F, 0x00, 0x00, 0xFD, 0x8002, 0x24, 3⟩ },
  { bytes := [0xB5, 0xF0], x := 0x20, mem := [(0x0010, 0x55), (0x0110, 0xAA)], after := ⟨0x55, 0x20, 0x00, 0xFD, 0x8002, 0x24, 4⟩ },
  { bytes := [0xB6, 0xFF], y := 0x01, mem := [(0x0000, 0x33), (0x0100, 0x44)], after := ⟨0x00, 0x33, 0x01, 0xFD, 0x8002, 0x24, 4⟩ },
  { bytes := [0xAD, 0x34, 0x12], mem := [(0x1234, 0x80)], after := ⟨0x80, 0x00, 0x00, 0xFD, 0x8003, 0xA4, 4⟩ },
  { bytes := [0xBD, 0xF0, 0x12], x := 0x0F, mem := [(0x12FF, 0x01)], after := ⟨0x01, 0x0F, 0x00, 0xFD, 0x8003, 0x24, 4⟩ },
  { bytes := [0xBD, 0xF0, 0x12], x := 0x20, mem := [(0x1310, 0x02)], after := ⟨0x02, 0x20, 0x00, 0xFD, 0x8003, 0x24, 5⟩ },
  { bytes := [0xBD, 0xFF, 0xFF], x := 0x01, mem := [(0x0000, 0x99)], after := ⟨0x99, 0x01, 0x00, 0xFD, 0x8003, 0xA4, 5⟩ },
  { bytes := [0xB9, 0x80, 0x20], y := 0x80, mem := [(0x2100, 0x03)], after := ⟨0x03, 0x00, 0x80, 0xFD, 0x8003, 0x24, 5⟩ },
  { bytes := [0x9D, 0xF0, 0x12], a := 0x77, x := 0x20, after := ⟨0x77, 0x20, 0x00, 0xFD, 0x8003, 0x24, 5⟩, writes := [(0x1310, 0x77)] },
  { bytes := [0x9D, 0xF0, 0x12], a := 0x77, x := 0x01, after := ⟨0x77, 0x01, 0x00, 0xFD, 0x8003, 0x24, 5⟩, writes := [(0x12F1, 0x77)] },
  { bytes := [0xA1, 0x20], x := 0x04, mem := [(0x0024, 0x74), (0x0025, 0x20), (0x2074, 0x5A)], after := ⟨0x5A, 0x04, 0x00, 0xFD, 0x8002, 0x24, 6⟩ },
  { bytes := [0xA1, 0xFF], mem := [(0x0000, 0x04), (0x00FF, 0x00), (0x0100, 0x05), (0x0400, 0x11), (0x0500, 0x22)], after := ⟨0x11, 0x00, 0x00, 0xFD, 0x8002, 0x24, 6⟩ },
  { bytes := [0xA1, 0x80], x := 0xFF, mem := [(0x007F, 0x00), (0x0080, 0x03), (0x0300, 0x66)], after := ⟨0x66, 0xFF, 0x00, 0xFD, 0x8002, 0x24, 6⟩ },
  { bytes := [0xB1, 0x86], y := 0x10, mem := [(0x0086, 0x28), (0x0087, 0x40), (0x4038, 0x12)], after := ⟨0x12, 0x00, 0x10, 0xFD, 0x8002, 0x24, 5⟩ },
  { bytes := [0xB1, 0xFF], y := 0x01, mem := [(0x0000, 0x02), (0x00FF, 0xFF), (0x0300, 0x13)], after := ⟨0x13, 0x00, 0x01, 0xFD, 0x8002, 0x24, 6⟩ },
  { bytes := [0x91, 0x86], a := 0x42, y := 0x10, mem := [(0x0086, 0xF8), (0x0087, 0x40)], after := ⟨0x42, 0x00, 0x10, 0xFD, 0x8002, 0x24, 6⟩, writes := [(0x4108, 0x42)] }]

theorem test_vectors_addressing : addressingVectors.all Vector.passes = true := by decide +kernel

/-- Section 2.2: V18 to V29. -/
def loadStoreTransferVectors : List Vector :=
  [
  { bytes := [0xA9, 0x00], a := 0x55, p := 0xA4, after := ⟨0x00, 0x00, 0x00, 0xFD, 0x8002, 0x26, 2⟩ },
  { bytes := [0xA2, 0xFF], after := ⟨0x00, 0xFF, 0x00, 0xFD, 0x8002, 0xA4, 2⟩ },
  { bytes := [0xA0, 0x7F], after := ⟨0x00, 0x00, 0x7F, 0xFD, 0x8002, 0x24, 2⟩ },
  { bytes := [0x85, 0x10], after := ⟨0x00, 0x00, 0x00, 0xFD, 0x8002, 0x24, 3⟩, writes := [(0x0010, 0x00)] },
  { bytes := [0x8E, 0x00, 0x02], x := 0x80, after := ⟨0x00, 0x80, 0x00, 0xFD, 0x8003, 0x24, 4⟩, writes := [(0x0200, 0x80)] },
  { bytes := [0x94, 0x10], x := 0xF8, y := 0x09, after := ⟨0x00, 0xF8, 0x09, 0xFD, 0x8002, 0x24, 4⟩, writes := [(0x0008, 0x09)] },
  { bytes := [0xAA], a := 0x80, after := ⟨0x80, 0x80, 0x00, 0xFD, 0x8001, 0xA4, 2⟩ },
  { bytes := [0xA8], y := 0x55, after := ⟨0x00, 0x00, 0x00, 0xFD, 0x8001, 0x26, 2⟩ },
  { bytes := [0x8A], a := 0xFF, x := 0x01, p := 0xA4, after := ⟨0x01, 0x01, 0x00, 0xFD, 0x8001, 0x24, 2⟩ },
  { bytes := [0x98], y := 0x90, after := ⟨0x90, 0x00, 0x90, 0xFD, 0x8001, 0xA4, 2⟩ },
  { bytes := [0xBA], after := ⟨0x00, 0xFD, 0x00, 0xFD, 0x8001, 0xA4, 2⟩ },
  { bytes := [0x9A], after := ⟨0x00, 0x00, 0x00, 0x00, 0x8001, 0x24, 2⟩ }]

theorem test_vectors_load_store_transfer : loadStoreTransferVectors.all Vector.passes = true := by decide +kernel

/-- Section 2.3: V30 to V59. -/
def arithmeticVectors : List Vector :=
  [
  { bytes := [0x69, 0x10], a := 0x50, after := ⟨0x60, 0x00, 0x00, 0xFD, 0x8002, 0x24, 2⟩ },
  { bytes := [0x69, 0x50], a := 0x50, after := ⟨0xA0, 0x00, 0x00, 0xFD, 0x8002, 0xE4, 2⟩ },
  { bytes := [0x69, 0x90], a := 0x50, after := ⟨0xE0, 0x00, 0x00, 0xFD, 0x8002, 0xA4, 2⟩ },
  { bytes := [0x69, 0xD0], a := 0x50, after := ⟨0x20, 0x00, 0x00, 0xFD, 0x8002, 0x25, 2⟩ },
  { bytes := [0x69, 0x10], a := 0xD0, after := ⟨0xE0, 0x00, 0x00, 0xFD, 0x8002, 0xA4, 2⟩ },
  { bytes := [0x69, 0x50], a := 0xD0, after := ⟨0x20, 0x00, 0x00, 0xFD, 0x8002, 0x25, 2⟩ },
  { bytes := [0x69, 0x90], a := 0xD0, after := ⟨0x60, 0x00, 0x00, 0xFD, 0x8002, 0x65, 2⟩ },
  { bytes := [0x69, 0xD0], a := 0xD0, after := ⟨0xA0, 0x00, 0x00, 0xFD, 0x8002, 0xA5, 2⟩ },
  { bytes := [0x69, 0x00], a := 0xFF, p := 0x25, after := ⟨0x00, 0x00, 0x00, 0xFD, 0x8002, 0x27, 2⟩ },
  { bytes := [0x69, 0x00], a := 0x7F, p := 0x25, after := ⟨0x80, 0x00, 0x00, 0xFD, 0x8002, 0xE4, 2⟩ },
  { bytes := [0x69, 0xFF], a := 0xFF, p := 0x25, after := ⟨0xFF, 0x00, 0x00, 0xFD, 0x8002, 0xA5, 2⟩ },
  { bytes := [0x69, 0x09], a := 0x09, p := 0x2C, after := ⟨0x12, 0x00, 0x00, 0xFD, 0x8002, 0x2C, 2⟩ },
  { bytes := [0xE9, 0xF0], a := 0x50, p := 0x25, after := ⟨0x60, 0x00, 0x00, 0xFD, 0x8002, 0x24, 2⟩ },
  { bytes := [0xE9, 0xB0], a := 0x50, p := 0x25, after := ⟨0xA0, 0x00, 0x00, 0xFD, 0x8002, 0xE4, 2⟩ },
  { bytes := [0xE9, 0x70], a := 0x50, p := 0x25, after := ⟨0xE0, 0x00, 0x00, 0xFD, 0x8002, 0xA4, 2⟩ },
  { bytes := [0xE9, 0x30], a := 0x50, p := 0x25, after := ⟨0x20, 0x00, 0x00, 0xFD, 0x8002, 0x25, 2⟩ },
  { bytes := [0xE9, 0xF0], a := 0xD0, p := 0x25, after := ⟨0xE0, 0x00, 0x00, 0xFD, 0x8002, 0xA4, 2⟩ },
  { bytes := [0xE9, 0x70], a := 0xD0, p := 0x25, after := ⟨0x60, 0x00, 0x00, 0xFD, 0x8002, 0x65, 2⟩ }] ++
  [
  { bytes := [0xE9, 0x40], a := 0x40, p := 0x25, after := ⟨0x00, 0x00, 0x00, 0xFD, 0x8002, 0x27, 2⟩ },
  { bytes := [0xE9, 0x40], a := 0x40, after := ⟨0xFF, 0x00, 0x00, 0xFD, 0x8002, 0xA4, 2⟩ },
  { bytes := [0xE9, 0x00], after := ⟨0xFF, 0x00, 0x00, 0xFD, 0x8002, 0xA4, 2⟩ },
  { bytes := [0xE9, 0x01], a := 0x80, p := 0x25, after := ⟨0x7F, 0x00, 0x00, 0xFD, 0x8002, 0x65, 2⟩ },
  { bytes := [0xE6, 0x10], mem := [(0x0010, 0xFF)], after := ⟨0x00, 0x00, 0x00, 0xFD, 0x8002, 0x26, 5⟩, writes := [(0x0010, 0x00)] },
  { bytes := [0xEE, 0x00, 0x03], mem := [(0x0300, 0x7F)], after := ⟨0x00, 0x00, 0x00, 0xFD, 0x8003, 0xA4, 6⟩, writes := [(0x0300, 0x80)] },
  { bytes := [0xC6, 0x10], mem := [(0x0010, 0x00)], after := ⟨0x00, 0x00, 0x00, 0xFD, 0x8002, 0xA4, 5⟩, writes := [(0x0010, 0xFF)] },
  { bytes := [0xDE, 0xFF, 0x02], x := 0x01, mem := [(0x0300, 0x01)], after := ⟨0x00, 0x01, 0x00, 0xFD, 0x8003, 0x26, 7⟩, writes := [(0x0300, 0x00)] },
  { bytes := [0xE8], x := 0xFF, after := ⟨0x00, 0x00, 0x00, 0xFD, 0x8001, 0x26, 2⟩ },
  { bytes := [0xC8], y := 0x7F, after := ⟨0x00, 0x00, 0x80, 0xFD, 0x8001, 0xA4, 2⟩ },
  { bytes := [0xCA], after := ⟨0x00, 0xFF, 0x00, 0xFD, 0x8001, 0xA4, 2⟩ },
  { bytes := [0x88], y := 0x01, after := ⟨0x00, 0x00, 0x00, 0xFD, 0x8001, 0x26, 2⟩ }]

theorem test_vectors_arithmetic : arithmeticVectors.all Vector.passes = true := by decide +kernel

/-- Section 2.4: V60 to V76. -/
def logicalShiftVectors : List Vector :=
  [
  { bytes := [0x29, 0x0F], a := 0xF0, after := ⟨0x00, 0x00, 0x00, 0xFD, 0x8002, 0x26, 2⟩ },
  { bytes := [0x09, 0x80], a := 0x01, after := ⟨0x81, 0x00, 0x00, 0xFD, 0x8002, 0xA4, 2⟩ },
  { bytes := [0x49, 0xFF], a := 0x0F, after := ⟨0xF0, 0x00, 0x00, 0xFD, 0x8002, 0xA4, 2⟩ },
  { bytes := [0x49, 0x5A], a := 0x5A, p := 0x25, after := ⟨0x00, 0x00, 0x00, 0xFD, 0x8002, 0x27, 2⟩ },
  { bytes := [0x24, 0x10], a := 0x01, mem := [(0x0010, 0xC0)], after := ⟨0x01, 0x00, 0x00, 0xFD, 0x8002, 0xE6, 3⟩ },
  { bytes := [0x2C, 0x00, 0x03], a := 0xFF, p := 0xE4, mem := [(0x0300, 0x3F)], after := ⟨0xFF, 0x00, 0x00, 0xFD, 0x8003, 0x24, 4⟩ },
  { bytes := [0x0A], a := 0x81, after := ⟨0x02, 0x00, 0x00, 0xFD, 0x8001, 0x25, 2⟩ },
  { bytes := [0x0A], a := 0x80, after := ⟨0x00, 0x00, 0x00, 0xFD, 0x8001, 0x27, 2⟩ },
  { bytes := [0x06, 0x10], a := 0x11, mem := [(0x0010, 0x40)], after := ⟨0x11, 0x00, 0x00, 0xFD, 0x8002, 0xA4, 5⟩, writes := [(0x0010, 0x80)] },
  { bytes := [0x4A], a := 0x01, p := 0xA4, after := ⟨0x00, 0x00, 0x00, 0xFD, 0x8001, 0x27, 2⟩ },
  { bytes := [0x46, 0x10], mem := [(0x0010, 0x03)], after := ⟨0x00, 0x00, 0x00, 0xFD, 0x8002, 0x25, 5⟩, writes := [(0x0010, 0x01)] },
  { bytes := [0x2A], a := 0x40, p := 0x25, after := ⟨0x81, 0x00, 0x00, 0xFD, 0x8001, 0xA4, 2⟩ },
  { bytes := [0x2A], a := 0x80, after := ⟨0x00, 0x00, 0x00, 0xFD, 0x8001, 0x27, 2⟩ },
  { bytes := [0x3E, 0x00, 0x03], x := 0x02, p := 0x25, mem := [(0x0302, 0x7F)], after := ⟨0x00, 0x02, 0x00, 0xFD, 0x8003, 0xA4, 7⟩, writes := [(0x0302, 0xFF)] },
  { bytes := [0x6A], a := 0x01, p := 0x25, after := ⟨0x80, 0x00, 0x00, 0xFD, 0x8001, 0xA5, 2⟩ },
  { bytes := [0x6A], a := 0x01, after := ⟨0x00, 0x00, 0x00, 0xFD, 0x8001, 0x27, 2⟩ },
  { bytes := [0x76, 0x10], x := 0x01, p := 0x25, mem := [(0x0011, 0x00)], after := ⟨0x00, 0x01, 0x00, 0xFD, 0x8002, 0xA4, 6⟩, writes := [(0x0011, 0x80)] }]

theorem test_vectors_logical_shift : logicalShiftVectors.all Vector.passes = true := by decide +kernel

/-- Section 2.5: V77 to V83. -/
def compareVectors : List Vector :=
  [
  { bytes := [0xC9, 0x10], a := 0x10, after := ⟨0x10, 0x00, 0x00, 0xFD, 0x8002, 0x27, 2⟩ },
  { bytes := [0xC9, 0x20], a := 0x10, after := ⟨0x10, 0x00, 0x00, 0xFD, 0x8002, 0xA4, 2⟩ },
  { bytes := [0xC9, 0x01], a := 0x80, after := ⟨0x80, 0x00, 0x00, 0xFD, 0x8002, 0x25, 2⟩ },
  { bytes := [0xC9, 0xFF], p := 0x65, after := ⟨0x00, 0x00, 0x00, 0xFD, 0x8002, 0x64, 2⟩ },
  { bytes := [0xE0, 0x05], x := 0x04, after := ⟨0x00, 0x04, 0x00, 0xFD, 0x8002, 0xA4, 2⟩ },
  { bytes := [0xC0, 0x00], after := ⟨0x00, 0x00, 0x00, 0xFD, 0x8002, 0x27, 2⟩ },
  { bytes := [0xDD, 0xFF, 0x02], a := 0x05, x := 0x01, mem := [(0x0300, 0x05)], after := ⟨0x05, 0x01, 0x00, 0xFD, 0x8003, 0x27, 5⟩ }]

theorem test_vectors_compare : compareVectors.all Vector.passes = true := by decide +kernel

/-- Section 2.6: V84 to V96. -/
def branchVectors : List Vector :=
  [
  { bytes := [0x10, 0x05], after := ⟨0x00, 0x00, 0x00, 0xFD, 0x8007, 0x24, 3⟩ },
  { bytes := [0x10, 0x05], p := 0xA4, after := ⟨0x00, 0x00, 0x00, 0xFD, 0x8002, 0xA4, 2⟩ },
  { bytes := [0x30, 0xFE], p := 0xA4, after := ⟨0x00, 0x00, 0x00, 0xFD, 0x8000, 0xA4, 3⟩ },
  { bytes := [0x50, 0x10], after := ⟨0x00, 0x00, 0x00, 0xFD, 0x8012, 0x24, 3⟩ },
  { bytes := [0x70, 0x10], p := 0x64, after := ⟨0x00, 0x00, 0x00, 0xFD, 0x8012, 0x64, 3⟩ },
  { bytes := [0x90, 0x80], after := ⟨0x00, 0x00, 0x00, 0xFD, 0x7F82, 0x24, 4⟩ },
  { bytes := [0xB0, 0x7F], p := 0x25, after := ⟨0x00, 0x00, 0x00, 0xFD, 0x8081, 0x25, 3⟩ },
  { bytes := [0xD0, 0xF7], pc := 0x800D, after := ⟨0x00, 0x00, 0x00, 0xFD, 0x8006, 0x24, 3⟩ },
  { bytes := [0xF0, 0x00], p := 0x26, after := ⟨0x00, 0x00, 0x00, 0xFD, 0x8002, 0x26, 3⟩ },
  { bytes := [0xD0, 0x7F], pc := 0x8080, after := ⟨0x00, 0x00, 0x00, 0xFD, 0x8101, 0x24, 4⟩ },
  { bytes := [0xD0, 0x02], pc := 0x80FE, after := ⟨0x00, 0x00, 0x00, 0xFD, 0x8102, 0x24, 4⟩ },
  { bytes := [0xD0, 0xFC], pc := 0x80FE, after := ⟨0x00, 0x00, 0x00, 0xFD, 0x80FC, 0x24, 3⟩ },
  { bytes := [0xD0, 0x10], pc := 0xFFF0, after := ⟨0x00, 0x00, 0x00, 0xFD, 0x0002, 0x24, 4⟩ }]

theorem test_vectors_branch : branchVectors.all Vector.passes = true := by decide +kernel

/-- Section 2.7: V97 to V111. -/
def jumpCallStackVectors : List Vector :=
  [
  { bytes := [0x4C, 0xF5, 0xC5], pc := 0xC000, after := ⟨0x00, 0x00, 0x00, 0xFD, 0xC5F5, 0x24, 3⟩ },
  { bytes := [0x6C, 0x00, 0x02], mem := [(0x0200, 0x34), (0x0201, 0x12)], after := ⟨0x00, 0x00, 0x00, 0xFD, 0x1234, 0x24, 5⟩ },
  { bytes := [0x6C, 0xFF, 0x02], mem := [(0x0200, 0x03), (0x02FF, 0x00), (0x0300, 0x40)], after := ⟨0x00, 0x00, 0x00, 0xFD, 0x0300, 0x24, 5⟩ },
  { bytes := [0x20, 0x34, 0x12], after := ⟨0x00, 0x00, 0x00, 0xFB, 0x1234, 0x24, 6⟩, writes := [(0x01FD, 0x80), (0x01FC, 0x02)] },
  { bytes := [0x20, 0x00, 0x90], sp := 0x00, after := ⟨0x00, 0x00, 0x00, 0xFE, 0x9000, 0x24, 6⟩, writes := [(0x0100, 0x80), (0x01FF, 0x02)] },
  { bytes := [0x60], sp := 0xFB, mem := [(0x01FC, 0x02), (0x01FD, 0x80)], after := ⟨0x00, 0x00, 0x00, 0xFD, 0x8003, 0x24, 6⟩ },
  { bytes := [0x60], sp := 0xFF, mem := [(0x0100, 0xFF), (0x0101, 0xFF)], after := ⟨0x00, 0x00, 0x00, 0x01, 0x0000, 0x24, 6⟩ },
  { bytes := [0x48], a := 0x42, after := ⟨0x42, 0x00, 0x00, 0xFC, 0x8001, 0x24, 3⟩, writes := [(0x01FD, 0x42)] },
  { bytes := [0x48], a := 0x42, sp := 0x00, after := ⟨0x42, 0x00, 0x00, 0xFF, 0x8001, 0x24, 3⟩, writes := [(0x0100, 0x42)] },
  { bytes := [0x68], sp := 0xFC, mem := [(0x01FD, 0x80)], after := ⟨0x80, 0x00, 0x00, 0xFD, 0x8001, 0xA4, 4⟩ },
  { bytes := [0x68], a := 0x55, sp := 0xFF, mem := [(0x0100, 0x00)], after := ⟨0x00, 0x00, 0x00, 0x00, 0x8001, 0x26, 4⟩ },
  { bytes := [0x08], after := ⟨0x00, 0x00, 0x00, 0xFC, 0x8001, 0x24, 3⟩, writes := [(0x01FD, 0x34)] },
  { bytes := [0x08], p := 0xEF, after := ⟨0x00, 0x00, 0x00, 0xFC, 0x8001, 0xEF, 3⟩, writes := [(0x01FD, 0xFF)] },
  { bytes := [0x28], sp := 0xFC, mem := [(0x01FD, 0xFF)], after := ⟨0x00, 0x00, 0x00, 0xFD, 0x8001, 0xEF, 4⟩ },
  { bytes := [0x28], sp := 0xFC, mem := [(0x01FD, 0x00)], after := ⟨0x00, 0x00, 0x00, 0xFD, 0x8001, 0x20, 4⟩ }]

theorem test_vectors_jump_call_stack : jumpCallStackVectors.all Vector.passes = true := by decide +kernel

/-- Section 2.8: V112 to V126, those that complete. -/
def systemVectors : List Vector :=
  [
  { bytes := [0x00], mem := [(0xFFFE, 0x00), (0xFFFF, 0x90)], after := ⟨0x00, 0x00, 0x00, 0xFA, 0x9000, 0x24, 7⟩, writes := [(0x01FD, 0x80), (0x01FC, 0x02), (0x01FB, 0x34)] },
  { bytes := [0x00], sp := 0x01, p := 0x20, mem := [(0xFFFE, 0x00), (0xFFFF, 0x90)], after := ⟨0x00, 0x00, 0x00, 0xFE, 0x9000, 0x24, 7⟩, writes := [(0x0101, 0x80), (0x0100, 0x02), (0x01FF, 0x30)] },
  { bytes := [0x40], sp := 0xFA, mem := [(0x01FB, 0x34), (0x01FC, 0x02), (0x01FD, 0x80)], after := ⟨0x00, 0x00, 0x00, 0xFD, 0x8002, 0x24, 6⟩ },
  { bytes := [0x40], sp := 0xFA, mem := [(0x01FB, 0xC3), (0x01FC, 0x00), (0x01FD, 0xC0)], after := ⟨0x00, 0x00, 0x00, 0xFD, 0xC000, 0xE3, 6⟩ },
  { bytes := [0xEA], after := ⟨0x00, 0x00, 0x00, 0xFD, 0x8001, 0x24, 2⟩ },
  { bytes := [0x18], p := 0x25, after := ⟨0x00, 0x00, 0x00, 0xFD, 0x8001, 0x24, 2⟩ },
  { bytes := [0x38], after := ⟨0x00, 0x00, 0x00, 0xFD, 0x8001, 0x25, 2⟩ },
  { bytes := [0x58], after := ⟨0x00, 0x00, 0x00, 0xFD, 0x8001, 0x20, 2⟩ },
  { bytes := [0x78], p := 0x20, after := ⟨0x00, 0x00, 0x00, 0xFD, 0x8001, 0x24, 2⟩ },
  { bytes := [0xB8], p := 0x64, after := ⟨0x00, 0x00, 0x00, 0xFD, 0x8001, 0x24, 2⟩ },
  { bytes := [0xD8], p := 0x2C, after := ⟨0x00, 0x00, 0x00, 0xFD, 0x8001, 0x24, 2⟩ },
  { bytes := [0xF8], after := ⟨0x00, 0x00, 0x00, 0xFD, 0x8001, 0x2C, 2⟩ }]

theorem test_vectors_system : systemVectors.all Vector.passes = true := by decide +kernel

/-- Section 2.9: V127 to V133, those that complete. -/
def interruptsVectors : List Vector :=
  [
  { bytes := [0xEA], p := 0x20, mem := [(0x9000, 0xEA), (0xA000, 0xEA), (0xFFFA, 0x00), (0xFFFB, 0x90), (0xFFFE, 0x00), (0xFFFF, 0xA0)], nmi := true, after := ⟨0x00, 0x00, 0x00, 0xFA, 0x9001, 0x24, 9⟩, writes := [(0x01FD, 0x80), (0x01FC, 0x00), (0x01FB, 0x20)] },
  { bytes := [0xEA], mem := [(0x9000, 0xEA), (0xA000, 0xEA), (0xFFFA, 0x00), (0xFFFB, 0x90), (0xFFFE, 0x00), (0xFFFF, 0xA0)], nmi := true, after := ⟨0x00, 0x00, 0x00, 0xFA, 0x9001, 0x24, 9⟩, writes := [(0x01FD, 0x80), (0x01FC, 0x00), (0x01FB, 0x24)] },
  { bytes := [0xEA], p := 0x20, mem := [(0x9000, 0xEA), (0xA000, 0xEA), (0xFFFA, 0x00), (0xFFFB, 0x90), (0xFFFE, 0x00), (0xFFFF, 0xA0)], irq := true, after := ⟨0x00, 0x00, 0x00, 0xFA, 0xA001, 0x24, 9⟩, writes := [(0x01FD, 0x80), (0x01FC, 0x00), (0x01FB, 0x20)] },
  { bytes := [0xEA], mem := [(0x9000, 0xEA), (0xA000, 0xEA), (0xFFFA, 0x00), (0xFFFB, 0x90), (0xFFFE, 0x00), (0xFFFF, 0xA0)], irq := true, after := ⟨0x00, 0x00, 0x00, 0xFD, 0x8001, 0x24, 2⟩ },
  { bytes := [0xEA], p := 0x20, mem := [(0x9000, 0xEA), (0xA000, 0xEA), (0xFFFA, 0x00), (0xFFFB, 0x90), (0xFFFE, 0x00), (0xFFFF, 0xA0)], nmi := true, irq := true, after := ⟨0x00, 0x00, 0x00, 0xFA, 0x9001, 0x24, 9⟩, writes := [(0x01FD, 0x80), (0x01FC, 0x00), (0x01FB, 0x20)] },
  { bytes := [0xEA], sp := 0x01, p := 0xE3, mem := [(0x9000, 0xEA), (0xA000, 0xEA), (0xFFFA, 0x00), (0xFFFB, 0x90), (0xFFFE, 0x00), (0xFFFF, 0xA0)], nmi := true, after := ⟨0x00, 0x00, 0x00, 0xFE, 0x9001, 0xE7, 9⟩, writes := [(0x0101, 0x80), (0x0100, 0x00), (0x01FF, 0xE3)] }]

theorem test_vectors_interrupts : interruptsVectors.all Vector.passes = true := by decide +kernel

/-! ### The faulting vectors -/

/-- V124. -/
theorem test_fault_v124 :
    let s : State := { State.reset with pc := 0x8000, mem := [(0x8000, 0x02)] }
    callStep s = .fault (.unimplementedOpcode 0x02) { s with halted := some 0x02 } := by rfl

/-- V125. -/
theorem test_fault_v125 :
    let s : State := { State.reset with pc := 0x8000, mem := [(0x8000, 0x1A)] }
    callStep s = .fault (.unimplementedOpcode 0x1A) { s with halted := some 0x1A } := by rfl

/-- V126. -/
theorem test_fault_v126 :
    let s : State := { State.reset with pc := 0x8000, mem := [(0x8000, 0xFF)] }
    callStep s = .fault (.unimplementedOpcode 0xFF) { s with halted := some 0xFF } := by rfl

/-- V133: the service of the same step stays performed. -/
theorem test_fault_v133 :
    let s := { State.reset with pc := 0x8000, p := 0x20, nmiPending := true, mem := storeCells [] [(0x8000, 0xEA), (0x9000, 0x02), (0xA000, 0xEA), (0xFFFA, 0x00), (0xFFFB, 0x90), (0xFFFE, 0x00), (0xFFFF, 0xA0)] }
    callStep s = .fault (.unimplementedOpcode 0x02)
      { s with pc := 0x9000, sp := 0xFA, p := 0x24, cyc := 14, nmiPending := false, halted := some 0x02,
               mem := storeCells s.mem [(0x01FD, 0x80), (0x01FC, 0x00), (0x01FB, 0x20)] } := by rfl

/-! ### Memory primitives (section 2.10) -/

def primitives : State :=
  { State.reset with
    mem := storeCells [] [(0x1234, 0x78), (0x1235, 0x56), (0xFFFF, 0xAA), (0x0000, 0xBB), (0x00FF, 0x11), (0x0100, 0x22),
      (0x02FF, 0x33), (0x0200, 0x44), (0x0300, 0x55)] }

theorem test_read16 : primitives.read16 0x1234 = 0x5678 ∧ primitives.read16 0xFFFF = 0xBBAA ∧
    primitives.read16 0x00FF = 0x2211 := by decide +kernel
theorem test_read16_zero_page : primitives.read16ZeroPage 0xFF = 0xBB11 := by decide +kernel
theorem test_read16_same_page : primitives.read16SamePage 0x02FF = 0x4433 ∧
    primitives.read16SamePage 0x1234 = 0x5678 := by decide +kernel
theorem test_push16_pull16 :
    let s := { primitives with sp := 0x00 }
    let t := s.push16 0xABCD
    t = { (s.write 0x0100 0xAB).write 0x01FF 0xCD with sp := 0xFE } ∧ t.pull16 = (0xABCD, { t with sp := 0x00 }) := by
  decide +kernel
theorem test_read_only :
    let s := { State.reset with platform := { readOnly := [⟨0x8000, 0xFFFF⟩] }, mem := [(0x8000, 0xEA)] }
    s.write 0x8000 0x00 = s ∧ s.read 0x8000 = 0xEA := by decide +kernel
theorem test_unmapped :
    let s := { State.reset with platform := { unmapped := [⟨0x4000, 0x7FFF⟩] } }
    (s.write 0x5000 0x77).read 0x5000 = 0x00 := by decide +kernel
theorem test_mirror :
    let s := { State.reset with platform := { mirrors := [⟨⟨0x0000, 0x1FFF⟩, 0x0000, 0x0800⟩] } }
    (s.write 0x0801 0x5A).read 0x0001 = 0x5A ∧ (s.write 0x0801 0x5A).read 0x2801 = 0x00 := by decide +kernel
theorem test_memory_blank_is_not_listed : Memory.set (Memory.set [] 5 0x11) 5 0x00 = [] := by decide

/-! ### Reset and session creation (70_reset_and_hazards.md R340, R341, R343) -/

theorem test_power_on : createSession { image := [0x34, 0x12], loadAddress := 0xFFFC } =
    some { State.reset with pc := 0x1234, mem := [(0xFFFC, 0x34), (0xFFFD, 0x12)] } := by decide +kernel
theorem test_warm_reset :
    ({ State.reset with a := 0x11, sp := 0x20, p := 0xE3, cyc := 100, nmiPending := true, halted := some 0x02 } : State).resetCall =
      { State.reset with cyc := 107, halted := some 0x02 } := by decide +kernel
theorem test_image_too_long : createSession { image := [0x01, 0x02], loadAddress := 0xFFFF } = none := by decide

/-! ### The log parser and the comparator (section 2.11) -/

theorem test_parse_line_1 : parseLine
    "C000  4C F5 C5  JMP $C5F5                       A:00 X:00 Y:00 P:24 SP:FD PPU:  0, 21 CYC:7".toList =
      .entry ⟨0xC000, [0x4C, 0xF5, 0xC5], 0x00, 0x00, 0x00, 0x24, 0xFD, 7⟩ := by decide +kernel
theorem test_parse_line_2 : parseLine
    "C5F5  A2 00     LDX #$00                        A:00 X:00 Y:00 P:24 SP:FD CYC:10".toList =
      .entry ⟨0xC5F5, [0xA2, 0x00], 0x00, 0x00, 0x00, 0x24, 0xFD, 10⟩ := by decide +kernel
theorem test_parse_line_3 : parseLine
    "C5F7  86 00     STX $00 = 00                    A:00 X:00 Y:00 P:26 SP:FD CYC: 12".toList =
      .entry ⟨0xC5F7, [0x86, 0x00], 0x00, 0x00, 0x00, 0x26, 0xFD, 12⟩ := by decide +kernel
theorem test_parse_line_4 : parseLine
    "C72A  04 A9    *NOP $A9 = 00                    A:AA X:97 Y:4E P:EF SP:F5 CYC:123".toList =
      .entry ⟨0xC72A, [0x04, 0xA9], 0xAA, 0x97, 0x4E, 0xEF, 0xF5, 123⟩ := by decide +kernel
theorem test_parse_line_5 : parseLine
    "c5f7  86 00     STX $00 = 00                    a:00 X:00 Y:00 P:26 SP:FD CYC:12".toList =
      .malformed .badRegisters := by decide +kernel
theorem test_parse_line_6 : parseLine
    "C000  4C F5 C5  JMP $C5F5".toList =
      .malformed .shortLine := by decide +kernel
theorem test_parse_line_7 : parseLine
    "".toList =
      .malformed .shortLine := by decide +kernel
theorem test_parse_line_8 : parseLine
    "C0G0  4C F5 C5  JMP $C5F5                       A:00 X:00 Y:00 P:24 SP:FD CYC:7".toList =
      .malformed .badPC := by decide +kernel
theorem test_parse_line_9 : parseLine
    "C000  4CF5 C5   JMP $C5F5                       A:00 X:00 Y:00 P:24 SP:FD CYC:7".toList =
      .malformed .badBytes := by decide +kernel
theorem test_parse_line_10 : parseLine
    "C000  4C F5 C5  JMP $C5F5                      A:00 X:00 Y:00 P:24 SP:FD  CYC:7".toList =
      .malformed .badRegisters := by decide +kernel
theorem test_parse_line_11 : parseLine
    "C000  4C F5 C5  JMP $C5F5                       A:00 X:00 Y:00 P:24 SP:FD CYC:".toList =
      .malformed .badCycle := by decide +kernel
theorem test_parse_line_12 : parseLine
    "C000  4C F5 C5  JMP $C5F5                       A:00 X:00 Y:00 P:24 SP:FD PPU:  0, 21".toList =
      .malformed .badCycle := by decide +kernel
theorem test_parse_line_13 : parseLine
    "C000     F5 C5  JMP $C5F5                       A:00 X:00 Y:00 P:24 SP:FD CYC:7".toList =
      .malformed .badBytes := by decide +kernel

def firstLine : String := "C000  4C F5 C5  JMP $C5F5                       A:00 X:00 Y:00 P:24 SP:FD PPU:  0, 21 CYC:7"
def secondLine : String := "C5F5  A2 00     LDX #$00                        A:00 X:00 Y:00 P:24 SP:FD CYC:10"
def thirdLine : String := "C5F7  86 00     STX $00 = 00                    A:00 X:00 Y:00 P:26 SP:FD CYC: 12"

def firstEntry : TraceEntry := ⟨0xC000, [0x4C, 0xF5, 0xC5], 0x00, 0x00, 0x00, 0x24, 0xFD, 7⟩
def secondEntry : TraceEntry := ⟨0xC5F5, [0xA2, 0x00], 0x00, 0x00, 0x00, 0x24, 0xFD, 10⟩
def thirdEntry : TraceEntry := ⟨0xC5F7, [0x86, 0x00], 0x00, 0x00, 0x00, 0x26, 0xFD, 12⟩
def threeEntries : List TraceEntry := [firstEntry, secondEntry, thirdEntry]

theorem test_parse_log_error :
    parseLog (firstLine ++ "\n" ++ secondLine ++ "\r\n" ++ "\n" ++ thirdLine).toList =
      .malformedReferenceLog 3 .shortLine := by decide +kernel
theorem test_parse_log_empty : parseLog [] = .entries [] := by decide
theorem test_parse_log_no_final_line_feed :
    parseLog (firstLine ++ "\n" ++ secondLine).toList = .entries [firstEntry, secondEntry] := by decide +kernel
theorem test_format_then_parse :
    parseLog (threeEntries.flatMap fun e => formatEntry e ++ ['\n']) = .entries threeEntries := by decide +kernel

theorem test_compare_match : compareTraces none threeEntries threeEntries = .matched := by decide
theorem test_compare_status :
    compareTraces none threeEntries [firstEntry, { secondEntry with p := 0x25 }, thirdEntry] =
      .traceMismatch 1 (.entry .p) (.number 0x25) (.number 0x24) (some 0xC5F5) := by decide +kernel
theorem test_compare_first_entry_first :
    compareTraces none threeEntries [{ firstEntry with cyc := 8 }, { secondEntry with a := 0x01, p := 0x25 }, thirdEntry] =
      .traceMismatch 0 (.entry .cyc) (.number 8) (.number 7) (some 0xC000) := by decide +kernel
theorem test_compare_field_order :
    compareTraces none threeEntries [firstEntry, secondEntry, { thirdEntry with pc := 0xC5F8, bytes := [0x86, 0x01] }] =
      .traceMismatch 2 (.entry .pc) (.number 0xC5F8) (.number 0xC5F7) (some 0xC5F7) := by decide +kernel
theorem test_compare_bytes :
    compareTraces none threeEntries [firstEntry, secondEntry, { thirdEntry with bytes := [0x86] }] =
      .traceMismatch 2 (.entry .bytes) (.bytes [0x86]) (.bytes [0x86, 0x00]) (some 0xC5F7) := by decide +kernel
theorem test_compare_short_reference :
    compareTraces none threeEntries [firstEntry, secondEntry] =
      .traceMismatch 2 .length (.number 2) (.number 3) none := by decide +kernel
theorem test_compare_long_reference :
    compareTraces none threeEntries (threeEntries ++ [thirdEntry]) =
      .traceMismatch 3 .length (.number 4) (.number 3) none ∧
    compareTraces (some 3) threeEntries (threeEntries ++ [thirdEntry]) = .matched := by decide +kernel
theorem test_compare_cap :
    compareTraces (some 3) threeEntries [firstEntry, secondEntry] =
      .traceMismatch 2 .length (.number 2) (.number 3) none ∧
    compareTraces (some 2) threeEntries [firstEntry, secondEntry] = .matched := by decide +kernel
theorem test_compare_empty :
    compareTraces none threeEntries [] = .traceMismatch 0 .length (.number 0) (.number 3) none ∧
    compareTraces none [] [] = .matched := by decide +kernel

/-! ### Witnesses: for each statement with hypotheses, a state and operands that meet all of them -/

/-- The reset state with these bytes at 0x8000 and PC there. -/
def running (bytes : List Byte) : State :=
  { State.reset with pc := 0x8000, mem := loadImage {} [] 0x8000 bytes }

/-- A completed outcome whose state satisfies `p`. -/
def completesWith (o : Host.Outcome State Fault Refusal) (p : State → Bool) : Bool :=
  match o with
  | .next t => p t
  | _ => false

theorem test_witness_DecodeOfEncodeIsIdentity :
    (Instr.jsr 0xFFFF).WellFormed ∧ (Instr.unimplemented 0xFF).WellFormed := by decide
theorem test_witness_DecodedBytesAreTheEncoding :
    decode [0x6C, 0xFF, 0x02, 0x00] = .instr (.jmpIndirect 0x02FF) [0x00] ∧
    decode [0xFF] = .instr (.unimplemented 0xFF) [] := by decide +kernel

/-- Both cases of the table: a documented byte and an undocumented one. -/
theorem test_witness_EveryByteHasExactlyOneEntry :
    (decodeSpec 0x00).documented = true ∧ (0x00 : Byte) ∉ undocumentedOpcodes ∧
    (decodeSpec 0xFF).documented = false ∧ (0xFF : Byte) ∈ undocumentedOpcodes := by decide +kernel

/-- With nothing pending, and with an NMI served first, when the instruction is the one at the vector's content. -/
theorem test_witness_StepRunsTheDecodedInstruction :
    (let s := running [0xA9, 0x10]
     s.halted = none ∧ s.checkInterrupts.pc = 0x8000 ∧
     decode [s.checkInterrupts.read s.checkInterrupts.pc, s.checkInterrupts.read (s.checkInterrupts.pc + 1),
       s.checkInterrupts.read (s.checkInterrupts.pc + 2)] = .instr (.ldaImmediate 0x10) [0x00]) ∧
    (let s := ((running [0xEA]).write 0xFFFB 0x90).requestNmi
     s.halted = none ∧ s.checkInterrupts.pc = 0x9000 ∧
     decode [s.checkInterrupts.read s.checkInterrupts.pc, s.checkInterrupts.read (s.checkInterrupts.pc + 1),
       s.checkInterrupts.read (s.checkInterrupts.pc + 2)] = .instr .brk [0x00, 0x00]) := by decide +kernel

/-- The two outcomes, the fault in both its ways. -/
theorem test_witness_StepHasOneOfTwoOutcomes :
    completesWith (step (running [0xEA])) (fun _ => true) = true ∧
    step (running [0x02]) = .fault (.unimplementedOpcode 0x02) ∧
    step ((running [0xEA]).latchHalt 0x03) = .fault (.unimplementedOpcode 0x03) := ⟨rfl, rfl, rfl⟩
theorem test_witness_UndocumentedByteFaultsAndLatches :
    (0xFF : Byte) ∈ undocumentedOpcodes ∧ (running [0xFF]).halted = none ∧
    (running [0xFF]).checkInterrupts.read (running [0xFF]).checkInterrupts.pc = 0xFF := by decide +kernel
theorem test_witness_HaltedSessionStaysHalted : ((running [0xEA]).latchHalt 0x02).halted = some 0x02 := by decide
theorem test_witness_DocumentedInstructionsComplete : ∀ op, Instr.sed ≠ .unimplemented op := by
  intro op h; cases h

theorem test_running_inv : (running [0xEA]).Inv := ⟨by decide, by decide, by decide, fun _ h => nomatch h⟩

theorem test_witness_CreatedSessionMeetsInvariant :
    createSession { initMem := [(0x0000, 0x01)], image := [0xEA], loadAddress := 0xFFFF } =
      some { State.reset with mem := [(0x0000, 0x01), (0xFFFF, 0xEA)] } := by decide +kernel
theorem test_witness_StepKeepsInvariant : (running [0xEA]).Inv ∧ ∃ t, step (running [0xEA]) = .next t :=
  ⟨test_running_inv, _, rfl⟩
theorem test_witness_HostCallsKeepInvariant : (running [0xEA]).Inv := test_running_inv
theorem test_witness_CycleCounterOnlyGrows : ∃ t, step State.reset = .next t := ⟨_, rfl⟩

/-- The three clauses, the last in both its ways. -/
theorem test_witness_InterruptCheckServesAtMostOne :
    (State.reset.requestNmi.nmiPending = true) ∧
    (let s := (State.reset.requestIrq).setP 0x20
     s.nmiPending = false ∧ s.irqPending = true ∧ flag s.p interruptBit = false) ∧
    (State.reset.nmiPending = false ∧ State.reset.irqPending = false) ∧
    (State.reset.requestIrq.nmiPending = false ∧ State.reset.requestIrq.irqPending = true ∧
      flag State.reset.requestIrq.p interruptBit = true) := by decide

/-- An NMI, and an IRQ that is not masked. -/
theorem test_witness_ServiceShowsInTheEntry :
    (∃ e t, callStep State.reset.requestNmi = .ok e t) ∧ State.reset.requestNmi.nmiPending = true ∧
    (∃ e t, callStep (State.reset.requestIrq.setP 0x20) = .ok e t) ∧
    (State.reset.requestIrq.setP 0x20).irqPending = true ∧
    flag (State.reset.requestIrq.setP 0x20).p interruptBit = false :=
  ⟨⟨_, _, rfl⟩, rfl, ⟨_, _, rfl⟩, rfl, rfl⟩
theorem test_witness_flat_ram :
    flatRam State.reset.platform ∧ Memory.wf State.reset.mem = true ∧ flag State.reset.p unusedBit = true :=
  ⟨⟨rfl, rfl, rfl⟩, rfl, rfl⟩

/-- The hypotheses of RtiUndoesAService hold at the lowest stack pointer too, where the pushes wrap. -/
theorem test_witness_RtiUndoesAService :
    completesWith (exec .rti (({ running [0xEA] with sp := 0x00 } : State).service nmiVector))
      (fun t => decide (t.pc = 0x8000 ∧ t.p = 0x24 ∧ t.sp = 0x00)) = true := by decide +kernel
theorem test_witness_PullsUndoPushes :
    flatRam (running [0x20]).platform ∧ Memory.wf (running [0x20]).mem = true ∧
    flag (running [0x20]).p unusedBit = true := ⟨⟨rfl, rfl, rfl⟩, rfl, rfl⟩
theorem test_witness_MaskedIrqStaysPending :
    (running [0xEA]).requestIrq.irqPending = true ∧ (running [0xEA]).requestIrq.nmiPending = false ∧
    flag (running [0xEA]).requestIrq.p interruptBit = true ∧ ∃ t, step (running [0xEA]).requestIrq = .next t :=
  ⟨rfl, rfl, rfl, _, rfl⟩

/-- Each condition true and false: every flag clear, and every flag set. -/
theorem test_witness_BranchesTakeOrPass :
    ([7, 6, 1, 0].all fun n => !flag 0x20 n && flag 0xEF n) = true := by decide

/-- The boundary targets: the farthest forward and backward, and a page crossed from 0xhhFE (93_implementation_defined.md
G12). -/
theorem test_branch_boundaries :
    exec (.bne 0x7F) (running []) = .next { running [] with pc := 0x8081, cyc := 10 } ∧
    exec (.bne 0x80) (running []) = .next { running [] with pc := 0x7F82, cyc := 11 } ∧
    exec (.bne 0x05) { running [] with pc := 0x80FE } = .next { running [] with pc := 0x8105, cyc := 11 } :=
  ⟨rfl, rfl, rfl⟩
theorem test_witness_FlagWritesTouchTheirBitsAlone :
    flag (withFlag 0x00 0 true) 0 = true ∧ flag (withFlag 0xFF 7 false) 7 = false ∧
    flag (withFlag 0x00 0 true) 7 = false ∧ flag (withZN 0xFF 0x00) 1 = true ∧ flag (withZN 0xFF 0x00) 7 = false ∧
    flag (withZN 0xFF 0x00) 0 = true := by decide
theorem test_witness_ExecuteLeavesSessionStateAlone : ∃ t, exec .brk State.reset = .next t := ⟨_, rfl⟩

/-- The hypothesis, for a form whose operand is its second byte and for one whose operand is in memory, indexed past the
end of the address space. -/
theorem test_witness_AdditionCarryAndSignedOverflow :
    (Instr.adcImmediate 0xFF).WellFormed ∧ mnemonic (.adcImmediate 0xFF) = .adc ∧
    operandByte (.adcImmediate 0xFF) State.reset = some 0xFF ∧
    (Instr.adcAbsoluteX 0xFFFF).WellFormed ∧ mnemonic (.adcAbsoluteX 0xFFFF) = .adc ∧
    operandByte (.adcAbsoluteX 0xFFFF) ((State.reset.setX 0x01).write 0x0000 0x80) = some 0x80 := by decide +kernel

/-- Each clause: an instruction that completes and does not write the register. -/
theorem test_witness_OnlyNamedInstructionsWriteRegisters :
    writesA .inx = false ∧ writesX .pla = false ∧ writesY .tsx = false ∧ writesSp .tsx = false ∧
    writesA (.aslZeroPage 0x10) = false ∧ writesA .aslAccumulator = true ∧
    (∃ t, exec .inx State.reset = .next t) ∧ (∃ t, exec .pla State.reset = .next t) ∧
    ∃ t, exec .tsx State.reset = .next t :=
  ⟨by decide +kernel, by decide +kernel, by decide +kernel, by decide +kernel, by decide +kernel, by decide +kernel,
    ⟨_, rfl⟩, ⟨_, rfl⟩, _, rfl⟩

/-- The lowest and the highest bit, and bit 4, which nothing writes. -/
theorem test_witness_OnlyNamedInstructionsWriteFlags :
    mnemonic .inx ∉ flagWriters 0 ∧ mnemonic .clc ∉ flagWriters 7 ∧ mnemonic .plp ∉ flagWriters 4 ∧
    (∃ t, exec .inx State.reset = .next t) ∧ (∃ t, exec .clc State.reset = .next t) ∧
    ∃ t, exec .plp State.reset = .next t :=
  ⟨by decide +kernel, by decide +kernel, by decide +kernel, ⟨_, rfl⟩, ⟨_, rfl⟩, _, rfl⟩
theorem test_witness_OtherInstructionsLeaveMemory :
    storeAddressing .rolAccumulator = none ∧ pushCount .rolAccumulator = 0 ∧
    ∃ t, exec .rolAccumulator State.reset = .next t :=
  ⟨by decide +kernel, by decide +kernel, _, rfl⟩

/-- A store at the last address of the space, seen from the first. -/
theorem test_witness_StoresChangeOneCell :
    storeAddressing (.staAbsoluteX 0xFFFF) = some (.absoluteX 0xFFFF) ∧
    canon {} 0x0000 ≠ canon {} (resolve (.absoluteX 0xFFFF)
      (State.reset.setPc (State.reset.pc + BitVec.ofNat 16 (Instr.staAbsoluteX 0xFFFF).length))).ea ∧
    ∃ t, exec (.staAbsoluteX 0xFFFF) State.reset = .next t :=
  ⟨by decide +kernel, by decide +kernel, _, rfl⟩

/-- One, two and three pushes, each with the first cell below them untouched. -/
theorem test_witness_PushesChangeStackCells :
    pushCount .pha = 1 ∧ pushCount (.jsr 0x0000) = 2 ∧ pushCount .brk = 3 ∧
    (∀ k, k < 3 → canon {} 0x01FA ≠ canon {} (stackBelow State.reset (BitVec.ofNat 8 k))) ∧
    (∃ t, exec .pha State.reset = .next t) ∧ (∃ t, exec (.jsr 0x0000) State.reset = .next t) ∧
    ∃ t, exec .brk State.reset = .next t :=
  ⟨by decide +kernel, by decide +kernel, by decide +kernel, by decide +kernel, ⟨_, rfl⟩, ⟨_, rfl⟩, _, rfl⟩

/-- Each case of the read: an address that is not mapped, the written cell, a cell that is not writable. -/
theorem test_witness_BusReadAfterWrite :
    let s := { State.reset with platform := { unmapped := [⟨0x4000, 0x7FFF⟩], readOnly := [⟨0x8000, 0xFFFF⟩], fallback := 0x55 } }
    Memory.wf s.mem = true ∧ (s.write 0x4000 0x12).read 0x4000 = 0x55 ∧ (s.write 0x3FFF 0x12).read 0x3FFF = 0x12 ∧
    (s.write 0x8000 0x12).read 0x8000 = 0x00 := by decide +kernel

/-- In each of the three modes a low byte plus index of 256, which crosses, and of 255, which does not. -/
theorem test_witness_PageCrossingIsACarry :
    (resolve (.absoluteX 0x12FF) (State.reset.setX 0x01)).crossed = true ∧
    (resolve (.absoluteX 0x12FE) (State.reset.setX 0x01)).crossed = false ∧
    (resolve (.absoluteY 0x12FF) (State.reset.setY 0x01)).crossed = true ∧
    (resolve (.absoluteY 0x12FE) (State.reset.setY 0x01)).crossed = false ∧
    (resolve (.indirectY 0x10) ((State.reset.setY 0x01).setMem [(0x10, 0xFF)])).crossed = true ∧
    (resolve (.indirectY 0x10) ((State.reset.setY 0x01).setMem [(0x10, 0xFE)])).crossed = false := by decide +kernel

theorem test_witness_PowerOnState : (createSession { image := [0xEA], loadAddress := 0x8000 }).isSome = true := by decide

/-- An image at the end of the address space, where two bytes share a cell through a mirror; the last one stands. -/
theorem test_witness_ImageIsLoaded :
    let c : SessionParameters :=
      { platform := { mirrors := [⟨⟨0xFF00, 0xFFFF⟩, 0xFF00, 0x0001⟩] }, image := [0x11, 0x22], loadAddress := 0xFFFE }
    (createSession c).map (fun s => s.mem) = some [(0xFF00, 0x22)] ∧ c.image[1]? = some 0x22 ∧
    canon c.platform (c.loadAddress + 1) = 0xFF00 ∧ canon c.platform c.loadAddress = 0xFF00 := by decide +kernel
theorem test_witness_EntryIsThePreExecutionState : ∃ e t, callStep State.reset = .ok e t := ⟨_, _, rfl⟩
theorem test_recorder_appends :
    (((running [0xEA, 0xEA]).startRecording.calls [.step, .reset, .requestNmi]).recorder.entries) =
      [⟨0x8000, [0xEA], 0x00, 0x00, 0x00, 0x24, 0xFD, 7⟩] := by decide +kernel
theorem test_witness_ParsingUndoesFormatting :
    ∀ e ∈ [firstEntry, secondEntry, { firstEntry with bytes := [0xEA] }], 1 ≤ e.bytes.length ∧ e.bytes.length ≤ 3 := by
  decide
theorem test_witness_ParseErrorNamesTheFirstBadLine :
    parseLog (firstLine ++ "\n" ++ "C000").toList = .malformedReferenceLog 2 .shortLine ∧
    (linesOf (firstLine ++ "\n" ++ "C000").toList)[1]? = some "C000".toList := by decide +kernel

/-- The last entry below a cap, one field changed. -/
theorem test_witness_FirstInjectedMismatchIsReported :
    compareTraces (some 3) threeEntries threeEntries = .matched ∧ threeEntries[2]? = some thirdEntry ∧
    (∀ n, some 3 = some n → 2 < n) ∧ ({ thirdEntry with sp := 0xFC } : TraceEntry).field .sp ≠ thirdEntry.field .sp ∧
    ∀ g, g ≠ .sp → ({ thirdEntry with sp := 0xFC } : TraceEntry).field g = thirdEntry.field g :=
  ⟨by decide +kernel, rfl, by intro n h; cases h; decide, by decide, by intro g h; cases g <;> first | rfl | exact absurd rfl h⟩

end Sys2Proof.Tests
end

