-- ==== Sys2Proof/Proofs/Scope.lean ====
section
/-! Bit by bit, what the writes of the status word leave (00_scope.md R13, 10_state.md R27). -/

namespace Sys2Proof.Proofs

open Sys2Proof.Machine Sys2Proof.Claims

/-- The mask of `withFlag` has bit `n` alone. -/
theorem getLsbD_flagMask (n : Nat) {k : Nat} (hk : k < 8) : (1#8 <<< n).getLsbD k = decide (k = n) := by
  rw [← BitVec.twoPow_eq, BitVec.getLsbD_twoPow]
  by_cases h : k = n
  · simp [← h, hk]
  · simp [h, Ne.symm h]

/-- R27: bit `k` of the status word after bit `n` was written. -/
theorem flag_withFlag (p : Byte) (n : Nat) {k : Nat} (b : Bool) (hk : k < 8) :
    flag (withFlag p n b) k = if k = n then b else flag p k := by
  cases b with
  | false =>
    have hclear : flag (withFlag p n false) k = (flag p k && !decide (k = n)) := by
      rw [flag, flag, withFlag, if_neg Bool.false_ne_true, BitVec.getLsbD_and, BitVec.getLsbD_not,
        getLsbD_flagMask n hk, decide_eq_true hk, Bool.true_and]
    rw [hclear]
    by_cases h : k = n <;> simp [h]
  | true =>
    have hset : flag (withFlag p n true) k = (flag p k || decide (k = n)) := by
      rw [flag, flag, withFlag, if_pos rfl, BitVec.getLsbD_or, getLsbD_flagMask n hk]
    rw [hset]
    by_cases h : k = n <;> simp [h]

/-- R13: bit `n` of the status word after `SetZN(v)`. `withZN` writes N last and this equation asks for Z first; the
two are distinct bits. -/
theorem flag_withZN (p v : Byte) {n : Nat} (hn : n < 8) :
    flag (withZN p v) n =
      if n = zeroBit then decide (v = 0) else if n = negativeBit then v.getLsbD 7 else flag p n := by
  rw [withZN, flag_withFlag _ _ _ hn, flag_withFlag _ _ _ hn]
  by_cases hz : n = zeroBit
  · have hneg : n ≠ negativeBit := hz ▸ by decide
    have hbeq : (v == 0) = decide (v = 0) := rfl
    rw [if_neg hneg, if_pos hz, if_pos hz, hbeq]
  · rw [if_neg hz, if_neg hz]

/-- Settles O28: both clauses read the written word bit by bit. -/
theorem flagWritesTouchTheirBitsAlone : Obligations.FlagWritesTouchTheirBitsAlone :=
  ⟨fun p n _ b _ hk => flag_withFlag p n b hk, fun p v _ hn => flag_withZN p v hn⟩

end Sys2Proof.Proofs
end

