-- ==== Sys2Proof/Proofs/Effects.lean ====
section
/-! What Resolve and Execute can do (40_execution_core.md R116), said once: the state an instruction leaves, with its
operand, its address and its target abstracted, and with the mnemonics that act so. A claim about every instruction that
does not depend on those is a claim about each effect. -/

namespace Sys2Proof.Proofs

open Sys2Proof.Machine Sys2Proof.Claims Sys2Proof.Laws

/-- The mnemonics whose effect is `A <- v; SetZN(v)` and nothing else. -/
def kindsLoadingA : List Kind := [.lda, .txa, .tya, .and, .ora, .eor]

/-- The mnemonics whose effect is `X <- v; SetZN(v)`. -/
def kindsLoadingX : List Kind := [.ldx, .tax, .tsx, .inx, .dex]

/-- The mnemonics whose effect is `Y <- v; SetZN(v)`. -/
def kindsLoadingY : List Kind := [.ldy, .tay, .iny, .dey]

/-- The mnemonics that add to A (R171, R172). -/
def kindsAdding : List Kind := [.adc, .sbc]

/-- The mnemonics that compare a register (R211 to R213). -/
def kindsComparing : List Kind := [.cmp, .cpx, .cpy]

/-- The mnemonics that store a register (R154 to R156). -/
def kindsStoring : List Kind := [.sta, .stx, .sty]

/-- The mnemonics that count a byte of memory (R173, R174). -/
def kindsCounting : List Kind := [.inc, .dec]

/-- The shifts and rotates (R196 to R199). -/
def kindsShifting : List Kind := [.asl, .lsr, .rol, .ror]

/-- The mnemonics that write PC alone: the branches and JMP. -/
def kindsJumping : List Kind := [.bpl, .bmi, .bvc, .bvs, .bcc, .bcs, .bne, .beq, .jmp]

/-- The mnemonics that push one byte. -/
def kindsPushing : List Kind := [.pha, .php]

/-- The flag instructions, each with the bit it writes (R259 to R265). -/
def flagInstructions : List (Kind × Nat) :=
  [(.clc, carryBit), (.sec, carryBit), (.cli, interruptBit), (.sei, interruptBit), (.clv, overflowBit),
   (.cld, decimalBit), (.sed, decimalBit)]

/-- The shifts and rotates that work on register A. -/
def accumulatorForms : List Instr := [.aslAccumulator, .lsrAccumulator, .rolAccumulator, .rorAccumulator]

/-- `Effect i s u`: an instruction with the mnemonic of `i`, run in `s` (whose PC is past the instruction), may leave
`u`. -/
inductive Effect (i : Instr) (s : State) : State → Prop where
  | loadA (v : Byte) (hk : mnemonic i ∈ kindsLoadingA) : Effect i s ((s.setA v).setZN v)
  | loadX (v : Byte) (hk : mnemonic i ∈ kindsLoadingX) : Effect i s ((s.setX v).setZN v)
  | loadY (v : Byte) (hk : mnemonic i ∈ kindsLoadingY) : Effect i s ((s.setY v).setZN v)
  | add (r : Sum) (hk : mnemonic i ∈ kindsAdding) : Effect i s ((s.setA r.result).setP (withSum s.p r))
  | compare (reg m : Byte) (hk : mnemonic i ∈ kindsComparing) : Effect i s (s.setP (withCompare s.p reg m))
  | testBits (m : Byte) (hk : mnemonic i = .bit) : Effect i s (s.setP (withBitTest s.p s.a m))
  | store (a : Word) (v : Byte) (hk : mnemonic i ∈ kindsStoring) : Effect i s (s.write a v)
  | count (a : Word) (v : Byte) (hk : mnemonic i ∈ kindsCounting) :
      Effect i s ((s.write a v).setP (withZN s.p v))
  | shift (a : Word) (r : Shifted) (hk : mnemonic i ∈ kindsShifting) :
      Effect i s ((s.write a r.result).setP (withShift s.p r))
  | shiftA (r : Shifted) (hk : mnemonic i ∈ kindsShifting) (hi : i ∈ accumulatorForms) :
      Effect i s ((s.setA r.result).setP (withShift s.p r))
  | writeFlag (n : Nat) (b : Bool) (hk : (mnemonic i, n) ∈ flagInstructions) : Effect i s (s.setFlag n b)
  | jump (pc : Word) (hk : mnemonic i ∈ kindsJumping) : Effect i s (s.setPc pc)
  | call (pc : Word) (hk : mnemonic i = .jsr) : Effect i s ((s.push16 (s.pc - 1)).setPc pc)
  | returnFromCall (pc : Word) (hk : mnemonic i = .rts) : Effect i s ((s.setSp (s.sp + 1 + 1)).setPc pc)
  | push (v : Byte) (hk : mnemonic i ∈ kindsPushing) : Effect i s (s.push8 v)
  | pullA (v : Byte) (hk : mnemonic i = .pla) : Effect i s (((s.setSp (s.sp + 1)).setA v).setZN v)
  | pullStatus (v : Byte) (hk : mnemonic i = .plp) : Effect i s ((s.setSp (s.sp + 1)).setP (statusPulled s.p v))
  | interrupt (status : Byte) (hk : mnemonic i = .brk) : Effect i s (s.enterHandler (s.pc + 1) status irqVector)
  | returnFromInterrupt (v : Byte) (pc : Word) (hk : mnemonic i = .rti) :
      Effect i s (((s.setSp (s.sp + 1 + 1 + 1)).setP (statusPulled s.p v)).setPc pc)
  | transferXS (hk : mnemonic i = .txs) : Effect i s (s.setSp s.x)
  | nothing (hk : mnemonic i = .nop) : Effect i s s

/-- A branch, taken or not, writes PC alone (46_branch.md R220). -/
theorem branching_state (cond : State → Bool) (nn : Byte) (w : Word) (s : State) :
    ∃ pc, (branching cond nn w s).state = s.setPc pc := by
  cases h : cond s with
  | false => exact ⟨s.pc, by rw [branching_not_taken h]; rfl⟩
  | true => exact ⟨_, by rw [branching_taken h]⟩

/-- The body of every instruction has the effect of its mnemonic. -/
theorem effect_of_body {i : Instr} {body : Word → State → Executed} (h : bodyOf i = some body) (w : Word) (s : State) :
    Effect i s (body w s).state := by
  cases i with
  | ldaImmediate | ldaZeroPage | ldaZeroPageX | ldaAbsolute | ldaAbsoluteX | ldaAbsoluteY | ldaIndirectX | ldaIndirectY
  | andImmediate | andZeroPage | andZeroPageX | andAbsolute | andAbsoluteX | andAbsoluteY | andIndirectX | andIndirectY
  | oraImmediate | oraZeroPage | oraZeroPageX | oraAbsolute | oraAbsoluteX | oraAbsoluteY | oraIndirectX | oraIndirectY
  | eorImmediate | eorZeroPage | eorZeroPageX | eorAbsolute | eorAbsoluteX | eorAbsoluteY | eorIndirectX | eorIndirectY
  | txa | tya =>
    cases h; exact .loadA _ (by simp [mnemonic, kindsLoadingA])
  | ldxImmediate | ldxZeroPage | ldxZeroPageY | ldxAbsolute | ldxAbsoluteY | tax | tsx | inx | dex =>
    cases h; exact .loadX _ (by simp [mnemonic, kindsLoadingX])
  | ldyImmediate | ldyZeroPage | ldyZeroPageX | ldyAbsolute | ldyAbsoluteX | tay | iny | dey =>
    cases h; exact .loadY _ (by simp [mnemonic, kindsLoadingY])
  | adcImmediate | adcZeroPage | adcZeroPageX | adcAbsolute | adcAbsoluteX | adcAbsoluteY | adcIndirectX | adcIndirectY
  | sbcImmediate | sbcZeroPage | sbcZeroPageX | sbcAbsolute | sbcAbsoluteX | sbcAbsoluteY | sbcIndirectX
  | sbcIndirectY =>
    cases h; exact .add _ (by simp [mnemonic, kindsAdding])
  | cmpImmediate | cmpZeroPage | cmpZeroPageX | cmpAbsolute | cmpAbsoluteX | cmpAbsoluteY | cmpIndirectX | cmpIndirectY
  | cpxImmediate | cpxZeroPage | cpxAbsolute | cpyImmediate | cpyZeroPage | cpyAbsolute =>
    cases h; exact .compare _ _ (by simp [mnemonic, kindsComparing])
  | bitZeroPage | bitAbsolute => cases h; exact .testBits _ (by simp [mnemonic])
  | staZeroPage | staZeroPageX | staAbsolute | staAbsoluteX | staAbsoluteY | staIndirectX | staIndirectY
  | stxZeroPage | stxZeroPageY | stxAbsolute | styZeroPage | styZeroPageX | styAbsolute =>
    cases h; exact .store _ _ (by simp [mnemonic, kindsStoring])
  | incZeroPage | incZeroPageX | incAbsolute | incAbsoluteX | decZeroPage | decZeroPageX | decAbsolute
  | decAbsoluteX =>
    cases h; exact .count _ _ (by simp [mnemonic, kindsCounting])
  | aslZeroPage | aslZeroPageX | aslAbsolute | aslAbsoluteX | lsrZeroPage | lsrZeroPageX | lsrAbsolute | lsrAbsoluteX
  | rolZeroPage | rolZeroPageX | rolAbsolute | rolAbsoluteX | rorZeroPage | rorZeroPageX | rorAbsolute
  | rorAbsoluteX =>
    cases h; exact .shift _ _ (by simp [mnemonic, kindsShifting])
  | aslAccumulator | lsrAccumulator | rolAccumulator | rorAccumulator =>
    cases h; exact .shiftA _ (by simp [mnemonic, kindsShifting]) (by simp [accumulatorForms])
  | clc | sec | cli | sei | clv | cld | sed =>
    cases h; exact .writeFlag _ _ (by simp [mnemonic, flagInstructions])
  | bpl nn | bmi nn | bvc nn | bvs nn | bcc nn | bcs nn | bne nn | beq nn =>
    cases h
    obtain ⟨pc, e⟩ := branching_state _ nn w s
    exact e ▸ .jump pc (by simp [mnemonic, kindsJumping])
  | jmpAbsolute | jmpIndirect => cases h; exact .jump _ (by simp [mnemonic, kindsJumping])
  | jsr => cases h; exact .call _ (by simp [mnemonic])
  | rts => cases h; exact .returnFromCall _ (by simp [mnemonic])
  | pha | php => cases h; exact .push _ (by simp [mnemonic, kindsPushing])
  | pla => cases h; exact .pullA _ (by simp [mnemonic])
  | plp => cases h; exact .pullStatus _ (by simp [mnemonic])
  | brk => cases h; exact .interrupt _ (by simp [mnemonic])
  | rti => cases h; exact .returnFromInterrupt _ _ (by simp [mnemonic])
  | txs => cases h; exact .transferXS (by simp [mnemonic])
  | nop => cases h; exact .nothing (by simp [mnemonic])
  | unimplemented => cases h

/-- R117: every instruction that has a meaning is charged at least 2 cycles. -/
theorem two_le_baseCycles {i : Instr} {body : Word → State → Executed} (h : bodyOf i = some body) :
    2 ≤ i.spec.baseCycles := by
  cases i with
  | unimplemented => cases h
  | _ => simp

/-- A next state of `exec`: PC past the instruction, the effect of its mnemonic, at least 2 cycles (R112, S5 to S8). -/
theorem exec_effect {i : Instr} {s t : State} (h : exec i s = .next t) :
    ∃ u n, Effect i (s.setPc (s.pc + BitVec.ofNat 16 i.length)) u ∧ 2 ≤ n ∧ t = u.addCyc n := by
  obtain ⟨body, n, hb, hn, rfl⟩ := exec_next h
  exact ⟨_, n, effect_of_body hb _ _, Nat.le_trans (two_le_baseCycles hb) hn, rfl⟩

/-- An instruction completes, or it is the `Unimplemented` variant and faults with its byte (R111, R312). -/
theorem exec_completes_or_faults (i : Instr) (s : State) :
    (∃ t, exec i s = .next t) ∨ ∃ op, i = .unimplemented op ∧ exec i s = .fault (.unimplementedOpcode op) := by
  cases hb : bodyOf i with
  | some body => exact .inl (exec_of_body hb s ▸ perform_completes i.opcode body s)
  | none =>
    obtain ⟨op, hi, he⟩ := exec_of_no_body hb
    exact .inr ⟨op, hi, he s⟩

end Sys2Proof.Proofs
end

