-- ==== Sys2Proof/Proofs/Frames.lean ====
section
/-! What an effect leaves alone: the session state of R20 that Execute does not write (R116), the canonical form of the
storage, and the bits of the status word (10_state.md R27 to R31). -/

namespace Sys2Proof.Proofs

open Sys2Proof.Machine Sys2Proof.Claims

/-! ### The session state and the storage -/

/-- The elements of the session that no instruction writes (R116), CYC apart. -/
structure KeepsSession (s t : State) : Prop where
  nmiPending : t.nmiPending = s.nmiPending
  irqPending : t.irqPending = s.irqPending
  halted : t.halted = s.halted
  platform : t.platform = s.platform
  recorder : t.recorder = s.recorder

theorem Effect.keepsSession {i : Instr} {s u : State} (h : Effect i s u) : KeepsSession s u := by
  cases h <;> constructor <;> simp

theorem Effect.cyc_eq {i : Instr} {s u : State} (h : Effect i s u) : u.cyc = s.cyc := by
  cases h <;> simp

/-- The effects that write storage do so by bus writes and pushes. -/
theorem Effect.mem_wf {i : Instr} {s u : State} (h : Effect i s u) (hs : Memory.wf s.mem = true) :
    Memory.wf u.mem = true := by
  cases h with
  | store a v => exact State.write_wf hs a v
  | count a v => exact State.write_wf hs a v
  | shift a r => exact State.write_wf hs a r.result
  | push v => exact State.push8_wf hs v
  | call => exact State.push16_wf hs (s.pc - 1)
  | interrupt status => exact State.enterHandler_wf hs (s.pc + 1) status irqVector
  | _ => exact hs

theorem exec_keepsSession {i : Instr} {s t : State} (h : exec i s = .next t) : KeepsSession s t := by
  obtain ⟨u, n, hu, -, rfl⟩ := exec_effect h
  obtain ⟨hnmi, hirq, hhalted, hplatform, hrecorder⟩ := hu.keepsSession
  exact ⟨hnmi, hirq, hhalted, hplatform, hrecorder⟩

theorem exec_mem_wf {i : Instr} {s t : State} (h : exec i s = .next t) (hs : Memory.wf s.mem = true) :
    Memory.wf t.mem = true := by
  obtain ⟨u, n, hu, -, rfl⟩ := exec_effect h
  exact hu.mem_wf hs

/-- R34, R117: CYC after an instruction. -/
theorem exec_cyc {i : Instr} {s t : State} (h : exec i s = .next t) : s.cyc + 2 ≤ t.cyc := by
  obtain ⟨u, n, hu, hn, rfl⟩ := exec_effect h
  have hcyc : u.cyc = s.cyc := hu.cyc_eq
  rw [State.addCyc_cyc, hcyc]
  exact Nat.add_le_add_left hn s.cyc

/-! ### The status word -/

/-- R245, R257: PLP and RTI force bit 5 to 1. -/
theorem flag_statusPulled_unused (p v : Byte) : flag (statusPulled p v) unusedBit = true := by
  have h20 : (0x20 : Byte).getLsbD unusedBit = true := by decide
  rw [flag, statusPulled, BitVec.getLsbD_or, BitVec.getLsbD_or, h20, Bool.or_true, Bool.true_or]

/-- R245, R257: PLP and RTI keep bit 4, whatever they pull. -/
theorem flag_statusPulled_break (p v : Byte) : flag (statusPulled p v) breakBit = flag p breakBit := by
  have hCF : (0xCF : Byte).getLsbD breakBit = false := by decide
  have h20 : (0x20 : Byte).getLsbD breakBit = false := by decide
  have h10 : (0x10 : Byte).getLsbD breakBit = true := by decide
  simp only [flag, statusPulled, BitVec.getLsbD_or, BitVec.getLsbD_and, hCF, h20, h10, Bool.and_false, Bool.or_false,
    Bool.false_or, Bool.and_true]

/-- `StatusWrites k p q`: the mnemonic `k` takes the status word from `p` to `q` by writing bits that R31 names for it,
none of them bit 5, or by a pull from the stack. -/
inductive StatusWrites (k : Kind) (p : Byte) : Byte → Prop where
  | keep : StatusWrites k p p
  | write {q : Byte} (n : Nat) (b : Bool) (hn : n ≠ unusedBit) (hk : k ∈ flagWriters n) (h : StatusWrites k p q) :
      StatusWrites k p (withFlag q n b)
  | pull (v : Byte) (hk : k ∈ flagWriters unusedBit) : StatusWrites k p (statusPulled p v)

/-- R13: the column of R31 names the same mnemonics for N as for Z. -/
theorem StatusWrites.writeZN {k : Kind} {p q : Byte} (v : Byte) (hk : k ∈ flagWriters zeroBit)
    (h : StatusWrites k p q) : StatusWrites k p (withZN q v) :=
  .write negativeBit _ (by decide) hk (.write zeroBit _ (by decide) hk h)

/-- C, Z and N: what the shifts, the rotates and the compares write. -/
theorem StatusWrites.writeCarryZN {k : Kind} {p : Byte} (c : Bool) (v : Byte) (hc : k ∈ flagWriters carryBit)
    (hz : k ∈ flagWriters zeroBit) : StatusWrites k p (withZN (withFlag p carryBit c) v) :=
  .writeZN v hz (.write carryBit c (by decide) hc .keep)

/-- Of the flags, an effect writes those that R31 names for its mnemonic. -/
theorem Effect.statusWrites {i : Instr} {s u : State} (h : Effect i s u) : StatusWrites (mnemonic i) s.p u.p := by
  cases h with
  | loadA v hk => exact .writeZN v ((by decide : kindsLoadingA ⊆ _) hk) .keep
  | loadX v hk => exact .writeZN v ((by decide : kindsLoadingX ⊆ _) hk) .keep
  | loadY v hk => exact .writeZN v ((by decide : kindsLoadingY ⊆ _) hk) .keep
  | pullA v hk => exact .writeZN v (hk ▸ by decide) .keep
  | count a v hk => exact .writeZN v ((by decide : kindsCounting ⊆ _) hk) .keep
  | compare reg m hk =>
    exact .writeCarryZN _ _ ((by decide : kindsComparing ⊆ _) hk) ((by decide : kindsComparing ⊆ _) hk)
  | shift a r hk | shiftA r hk =>
    exact .writeCarryZN _ _ ((by decide : kindsShifting ⊆ _) hk) ((by decide : kindsShifting ⊆ _) hk)
  | add r hk =>
    have hc : mnemonic i ∈ flagWriters carryBit := (by decide : kindsAdding ⊆ _) hk
    have hv : mnemonic i ∈ flagWriters overflowBit := (by decide : kindsAdding ⊆ _) hk
    have hz : mnemonic i ∈ flagWriters zeroBit := (by decide : kindsAdding ⊆ _) hk
    exact .writeZN _ hz (.write overflowBit _ (by decide) hv (.write carryBit _ (by decide) hc .keep))
  | testBits m hk =>
    exact .write overflowBit _ (by decide) (hk ▸ by decide) (.write negativeBit _ (by decide) (hk ▸ by decide)
      (.write zeroBit _ (by decide) (hk ▸ by decide) .keep))
  | writeFlag n b hk =>
    obtain ⟨hn, hk⟩ := (by decide : ∀ e ∈ flagInstructions, e.2 ≠ unusedBit ∧ e.1 ∈ flagWriters e.2) _ hk
    exact .write n b hn hk .keep
  | interrupt status hk =>
    rw [State.enterHandler_p]
    exact .write interruptBit true (by decide) (hk ▸ by decide) .keep
  | pullStatus v hk | returnFromInterrupt v pc hk => exact .pull v (hk ▸ by decide)
  | store a v => exact State.write_p s a v ▸ .keep
  | push v => exact State.push8_p s v ▸ .keep
  | call => exact State.push16_p s (s.pc - 1) ▸ .keep
  | jump | returnFromCall | transferXS | nothing => exact .keep

/-- A pull writes every bit but bit 4, and so R31 names PLP and RTI for every other bit. -/
theorem eq_breakBit_of_pulls {k : Kind} {n : Nat} (hn : n < 8) (hk : k ∈ flagWriters unusedBit)
    (hw : k ∉ flagWriters n) : n = breakBit := by
  have hall : ∀ k ∈ flagWriters unusedBit, ∀ n < 8, n ≠ breakBit → k ∈ flagWriters n := by decide
  exact Decidable.not_not.mp fun hne => hw (hall k hk n hn hne)

theorem StatusWrites.flag_eq {k : Kind} {p q : Byte} (h : StatusWrites k p q) {n : Nat} (hn : n < 8)
    (hw : k ∉ flagWriters n) : flag q n = flag p n := by
  induction h with
  | keep => rfl
  | write m b _ hk _ ih =>
    have hne : n ≠ m := fun e => hw (e ▸ hk)
    rw [flag_withFlag _ m b hn, if_neg hne, ih]
  | pull v hk => rw [eq_breakBit_of_pulls hn hk hw, flag_statusPulled_break]

/-- R28: bit 5 is written by the pulls alone, and they force it to 1. -/
theorem StatusWrites.unused_one {k : Kind} {p q : Byte} (h : StatusWrites k p q) (hp : flag p unusedBit = true) :
    flag q unusedBit = true := by
  induction h with
  | keep => exact hp
  | write n b hn _ _ ih => rw [flag_withFlag _ n b (by decide), if_neg hn.symm, ih]
  | pull v _ => exact flag_statusPulled_unused p v

theorem exec_statusWrites {i : Instr} {s t : State} (h : exec i s = .next t) :
    StatusWrites (mnemonic i) s.p t.p := by
  obtain ⟨u, n, hu, -, rfl⟩ := exec_effect h
  exact hu.statusWrites

end Sys2Proof.Proofs
end

