-- ==== Sys2Proof/Proofs/Invariant.lean ====
section
/-! The invariant of a session (10_state.md R28, R29; 49_trace_verifier.md R280) under the parts of a step and under every
host call. -/

namespace Sys2Proof.Proofs

open Sys2Proof.Machine Sys2Proof.Claims

/-! ### Recording -/

/-- An opcode byte and at most two operand bytes (R81, R83). -/
theorem length_bounds (spec : InstructionSpec) : 1 ≤ spec.length ∧ spec.length ≤ 3 := by
  have hwidth : spec.mode.width ≤ 2 := by cases spec.mode <;> decide
  exact ⟨Nat.le_add_right 1 _, Nat.add_le_add_left hwidth 1⟩

/-- R280, R281: the entry of a state that meets the invariant is legal. -/
theorem entryAtPc_legal {s : State} (h : s.Inv) : s.entryAtPc.legal := by
  have hlen : s.entryAtPc.bytes.length = (decodeSpec (s.read s.pc)).length := by
    simp [State.entryAtPc, snapshot]
  obtain ⟨hlow, hhigh⟩ := length_bounds (decodeSpec (s.read s.pc))
  exact ⟨hlen ▸ hlow, hlen ▸ hhigh, h.unused_one, h.break_zero⟩

theorem record_inv {s : State} {e : TraceEntry} (h : s.Inv) (he : e.legal) : (s.record e).Inv := by
  cases hr : s.recorder.recording with
  | false => rw [State.record_off hr]; exact h
  | true =>
    rw [State.record_on hr]
    refine ⟨h.unused_one, h.break_zero, h.mem_wf, fun x hx => ?_⟩
    obtain hx | hx := List.mem_append.mp hx
    · exact h.entries_legal x hx
    · exact List.mem_singleton.mp hx ▸ he

/-! ### A step -/

/-- R319: a service writes bit 2 of the status word alone. -/
theorem flag_checkInterrupts (s : State) {n : Nat} (hn : n < 8) (h2 : n ≠ interruptBit) :
    flag s.checkInterrupts.p n = flag s.p n := by
  have hmasked (p : Byte) : flag (withFlag p interruptBit true) n = flag p n := by
    rw [flag_withFlag p _ _ hn, if_neg h2]
  obtain ⟨-, e⟩ | ⟨-, -, -, e⟩ | ⟨-, -, e⟩ := s.checkInterrupts_cases <;> simp [e, State.service, hmasked]

theorem checkInterrupts_inv {s : State} (h : s.Inv) : s.checkInterrupts.Inv where
  unused_one := by rw [flag_checkInterrupts s (by decide) (by decide), h.unused_one]
  break_zero := by rw [flag_checkInterrupts s (by decide) (by decide), h.break_zero]
  mem_wf := State.checkInterrupts_wf h.mem_wf
  entries_legal := by rw [State.checkInterrupts_recorder]; exact h.entries_legal

theorem exec_inv {i : Instr} {s t : State} (h : exec i s = .next t) (hs : s.Inv) : t.Inv where
  unused_one := (exec_statusWrites h).unused_one hs.unused_one
  break_zero := by rw [(exec_statusWrites h).flag_eq (by decide) List.not_mem_nil, hs.break_zero]
  mem_wf := exec_mem_wf h hs.mem_wf
  entries_legal := by rw [(exec_keepsSession h).recorder]; exact hs.entries_legal

/-- Settles O12: the interrupt check, the instruction and the recording of its entry each keep the invariant. -/
theorem stepKeepsInvariant : Obligations.StepKeepsInvariant := by
  intro s t hs h
  obtain ⟨-, u, hu, rfl⟩ := step_next h
  have hc : s.checkInterrupts.Inv := checkInterrupts_inv hs
  exact record_inv (exec_inv hu hc) (entryAtPc_legal hc)

/-! ### The host calls -/

/-- What a call of `step()` leaves (R111, R112, R266): a halted session as it is; else, after the interrupt check, what the
instruction leaves with its entry recorded, or the latch set. -/
theorem callStep_after_cases (s : State) :
    ((∃ b, s.halted = some b) ∧ (callStep s).after = s) ∨
    (s.halted = none ∧ ∃ u, exec s.checkInterrupts.fetch s.checkInterrupts = .next u ∧
      (callStep s).after = u.record s.checkInterrupts.entryAtPc) ∨
    (s.halted = none ∧ ∃ b, (callStep s).after = s.checkInterrupts.latchHalt b) := by
  cases hh : s.halted with
  | some b => exact .inl ⟨⟨b, rfl⟩, by rw [callStep_halted hh]; rfl⟩
  | none =>
    rw [callStep_running hh]
    obtain ⟨u, hu⟩ | ⟨b, -, hf⟩ := exec_completes_or_faults s.checkInterrupts.fetch s.checkInterrupts
    · exact .inr (.inl ⟨rfl, u, hu, by rw [runInstruction_next hu]; rfl⟩)
    · exact .inr (.inr ⟨rfl, b, by rw [runInstruction_fault hf]; rfl⟩)

/-- A step keeps the invariant whether it completes or faults. -/
theorem callStep_after_inv {s : State} (h : s.Inv) : (callStep s).after.Inv := by
  have hc : s.checkInterrupts.Inv := checkInterrupts_inv h
  obtain ⟨-, e⟩ | ⟨-, u, hu, e⟩ | ⟨-, b, e⟩ := callStep_after_cases s <;> rw [e]
  · exact h
  · exact record_inv (exec_inv hu hc) (entryAtPc_legal hc)
  · exact ⟨hc.unused_one, hc.break_zero, hc.mem_wf, hc.entries_legal⟩

theorem call_inv {s : State} (h : s.Inv) (c : HostCall) : (s.call c).Inv := by
  obtain ⟨hunused, hbreak, hmem, hentries⟩ := h
  cases c with
  | step => exact callStep_after_inv ⟨hunused, hbreak, hmem, hentries⟩
  | reset =>
    have hp : (s.call .reset).p = 0x24 := rfl
    exact ⟨by rw [hp]; decide, by rw [hp]; decide, hmem, hentries⟩
  | requestNmi | requestIrq | startRecording => exact ⟨hunused, hbreak, hmem, hentries⟩
  | busWrite a v =>
    have hp : (s.write a v).p = s.p := State.write_p s a v
    have hr : (s.write a v).recorder = s.recorder := State.write_recorder s a v
    exact ⟨hp ▸ hunused, hp ▸ hbreak, State.write_wf hmem a v, hr ▸ hentries⟩

/-- Settles O13, by induction on the sequence of calls. -/
theorem hostCallsKeepInvariant : Obligations.HostCallsKeepInvariant := by
  intro s calls hs
  induction calls generalizing s with
  | nil => exact hs
  | cons c calls ih => exact ih (s.call c) (call_inv hs c)

/-- Settles O10. -/
theorem resetMeetsInvariant : Obligations.ResetMeetsInvariant where
  unused_one := rfl
  break_zero := rfl
  mem_wf := rfl
  entries_legal := fun _ he => absurd he List.not_mem_nil

end Sys2Proof.Proofs
end

