-- ==== Sys2Proof/Proofs/StateClaims.lean ====
section
/-! CYC, the pending IRQ, the registers and the flags over a step (10_state.md R21 to R36). -/

namespace Sys2Proof.Proofs

open Sys2Proof.Machine Sys2Proof.Claims

/-! ### The cycle counter -/

theorem record_cyc (s : State) (e : TraceEntry) : (s.record e).cyc = s.cyc := by
  obtain ⟨r, hr⟩ := s.record_eq e
  rw [hr, State.setRecorder_cyc]

/-- R317: a service adds its 7 cycles, and the check without one adds none. -/
theorem cyc_le_checkInterrupts (s : State) : s.cyc ≤ s.checkInterrupts.cyc := by
  obtain ⟨-, e⟩ | ⟨-, -, -, e⟩ | ⟨-, -, e⟩ := s.checkInterrupts_cases <;> simp [e, State.service]

/-- A completed instruction of a step, with its entry recorded, has added at least 2 cycles. -/
theorem cyc_of_completed {s u : State} (h : exec s.checkInterrupts.fetch s.checkInterrupts = .next u)
    (e : TraceEntry) : s.cyc + 2 ≤ (u.record e).cyc := by
  have hcheck : s.cyc ≤ s.checkInterrupts.cyc := cyc_le_checkInterrupts s
  have hexec : s.checkInterrupts.cyc + 2 ≤ u.cyc := exec_cyc h
  rw [record_cyc]
  omega

theorem cyc_le_callStep_after (s : State) : s.cyc ≤ (callStep s).after.cyc := by
  obtain ⟨-, e⟩ | ⟨-, u, hu, e⟩ | ⟨-, b, e⟩ := callStep_after_cases s
  · exact Nat.le_of_eq (congrArg State.cyc e.symm)
  · exact e ▸ Nat.le_of_add_right_le (cyc_of_completed hu _)
  · exact e ▸ cyc_le_checkInterrupts s

theorem cyc_le_call (s : State) (c : HostCall) : s.cyc ≤ (s.call c).cyc := by
  cases c with
  | step => exact cyc_le_callStep_after s
  | reset => exact Nat.le_add_right s.cyc s.platform.resetCycles
  | requestNmi | requestIrq | startRecording => exact Nat.le_refl s.cyc
  | busWrite a v => exact Nat.le_of_eq (State.write_cyc s a v).symm

/-- Settles O14: only `reset()`, a service and an instruction charge cycles, and an instruction at least 2. -/
theorem cycleCounterOnlyGrows : Obligations.CycleCounterOnlyGrows := by
  refine ⟨cyc_le_call, fun s t h => ?_⟩
  obtain ⟨-, u, hu, rfl⟩ := step_next h
  exact cyc_of_completed hu _

/-! ### The pending IRQ -/

theorem record_irqPending (s : State) (e : TraceEntry) : (s.record e).irqPending = s.irqPending := by
  obtain ⟨r, hr⟩ := s.record_eq e
  rw [hr, State.setRecorder_irqPending]

/-- R315: a masked request is not served. -/
theorem checkInterrupts_masked {s : State} (hn : s.nmiPending = false) (hf : flag s.p interruptBit = true) :
    s.checkInterrupts = s := by
  simp [State.checkInterrupts, hn, hf]

/-- Settles O18: the check serves nothing, and no instruction writes the pending flags. -/
theorem maskedIrqStaysPending : Obligations.MaskedIrqStaysPending := by
  intro s t hi hn hf h
  obtain ⟨-, u, hu, rfl⟩ := step_next h
  rw [checkInterrupts_masked hn hf] at hu ⊢
  rw [record_irqPending, (exec_keepsSession hu).irqPending, hi]

/-! ### The registers -/

/-- A mnemonic that a list does not name is in no part of it. -/
theorem not_mem_of_subset {named part : List Kind} {k : Kind} (h : named.contains k = false) (hsub : part ⊆ named) :
    k ∉ part :=
  fun hk => ne_true_of_eq_false h (List.contains_iff_mem.mpr (hsub hk))

/-- R21: the effects that write A are those of the mnemonics it names. -/
theorem Effect.a_eq {i : Instr} {s u : State} (h : Effect i s u) (hw : writesA i = false) : u.a = s.a := by
  obtain ⟨hkinds, hforms⟩ := Bool.or_eq_false_iff.mp hw
  cases h with
  | loadA v hk => exact absurd hk (not_mem_of_subset hkinds (by decide))
  | add r hk => exact absurd hk (not_mem_of_subset hkinds (by decide))
  | pullA v hk => simp [writesA, hk] at hw
  | shiftA r _ hi => exact absurd (List.contains_iff_mem.mpr hi) (ne_true_of_eq_false hforms)
  | _ => simp

/-- R22: the effects that write X are those of the mnemonics it names. -/
theorem Effect.x_eq {i : Instr} {s u : State} (h : Effect i s u) (hw : writesX i = false) : u.x = s.x := by
  cases h with
  | loadX v hk => exact absurd hk (not_mem_of_subset hw (List.Subset.refl _))
  | _ => simp

/-- R23: the effects that write Y are those of the mnemonics it names. -/
theorem Effect.y_eq {i : Instr} {s u : State} (h : Effect i s u) (hw : writesY i = false) : u.y = s.y := by
  cases h with
  | loadY v hk => exact absurd hk (not_mem_of_subset hw (List.Subset.refl _))
  | _ => simp

/-- R24: the effects that write SP are those of the mnemonics it names. -/
theorem Effect.sp_eq {i : Instr} {s u : State} (h : Effect i s u) (hw : writesSp i = false) : u.sp = s.sp := by
  cases h with
  | push v hk => exact absurd hk (not_mem_of_subset hw (by decide))
  | call _ hk | interrupt _ hk | returnFromCall _ hk | pullA _ hk | pullStatus _ hk | returnFromInterrupt _ _ hk
  | transferXS hk =>
    simp [writesSp, hk] at hw
  | _ => simp

/-- Settles O43: each effect that writes a register belongs to a mnemonic the rules name for it. -/
theorem onlyNamedInstructionsWriteRegisters : Obligations.OnlyNamedInstructionsWriteRegisters := by
  intro i s t h
  obtain ⟨u, n, hu, -, rfl⟩ := exec_effect h
  exact ⟨hu.a_eq, hu.x_eq, hu.y_eq, hu.sp_eq⟩

/-! ### The flags -/

/-- Settles O44: every write of the status word is one that R31 names for the mnemonic. -/
theorem onlyNamedInstructionsWriteFlags : Obligations.OnlyNamedInstructionsWriteFlags :=
  fun _ _ _ _ hn h hw => (exec_statusWrites h).flag_eq hn hw

end Sys2Proof.Proofs
end

