-- ==== Sys2Proof/Proofs/MemoryClaims.lean ====
section
/-! What a bus write, a push and the loading of an image leave in storage (20_memory.md R52, R53, R60 to R66). -/

namespace Sys2Proof.Proofs

open Sys2Proof.Machine Sys2Proof.Claims

/-! ### The bus -/

/-- R52: an address that is not mapped reads the fallback, whatever storage holds. -/
theorem read_unmapped {s : State} {a : Word} (h : mapped s.platform a = false) : s.read a = s.platform.fallback := by
  simp [State.read, h]

/-- Settles O48: a write that lands decides its own cell, one that does not land changes nothing. -/
theorem busReadAfterWrite : Obligations.BusReadAfterWrite := by
  intro s a b v hwf
  cases hb : mapped s.platform b with
  | false =>
    have hb' : mapped (s.write a v).platform b = false := by rw [State.write_platform, hb]
    rw [if_pos rfl, read_unmapped hb', State.write_platform]
  | true =>
    rw [if_neg Bool.false_ne_true.symm]
    split
    · next hlands =>
      obtain ⟨hmapped, hwritable, hcell⟩ := hlands
      exact State.read_write_same hwf v hmapped hwritable hb hcell
    · next hnot =>
      by_cases hcell : canon s.platform b = canon s.platform a
      · have hignored : (mapped s.platform a && writable s.platform (canon s.platform a)) = false :=
          Bool.eq_false_iff.mpr fun h => hnot (by simpa [hcell] using h)
        rw [State.write_ignored hignored]
      · exact State.read_write_other v hcell

/-! ### The stack -/

/-- `a` names none of the `n` stack cells from SP downward. -/
def AvoidsStack (s : State) (a : Word) (n : Nat) : Prop :=
  ∀ k, k < n → canon s.platform a ≠ canon s.platform (stackBelow s (BitVec.ofNat 8 k))

/-- R59: the cell at SP is the first of those from SP downward. -/
theorem stackBelow_zero (s : State) : stackBelow s (BitVec.ofNat 8 0) = stackAddress s.sp :=
  congrArg stackAddress (BitVec.sub_zero s.sp)

/-- R60: a push moves SP down, so the cells below it come one closer. -/
theorem stackBelow_push8 (s : State) (v : Byte) (k : Nat) :
    stackBelow (s.push8 v) (BitVec.ofNat 8 k) = stackBelow s (BitVec.ofNat 8 (k + 1)) := by
  have hsp : s.sp - 1 - BitVec.ofNat 8 k = s.sp - BitVec.ofNat 8 (k + 1) := by
    rw [BitVec.ofNat_add]; bv_omega
  exact congrArg stackAddress hsp

theorem AvoidsStack.push8 {s : State} {a : Word} {n : Nat} (h : AvoidsStack s a (n + 1)) (v : Byte) :
    AvoidsStack (s.push8 v) a n := fun k hk => by
  rw [State.push8_platform, stackBelow_push8]
  exact h (k + 1) (Nat.succ_lt_succ hk)

theorem AvoidsStack.read_push8 {s : State} {a : Word} {n : Nat} (h : AvoidsStack s a (n + 1)) (v : Byte) :
    (s.push8 v).read a = s.read a :=
  State.read_write_other v (stackBelow_zero s ▸ h 0 n.succ_pos)

theorem AvoidsStack.read_push16 {s : State} {a : Word} {n : Nat} (h : AvoidsStack s a (n + 2)) (w : Word) :
    (s.push16 w).read a = s.read a := by
  rw [State.push16, (h.push8 _).read_push8, h.read_push8]

theorem AvoidsStack.read_enterHandler {s : State} {a : Word} {n : Nat} (h : AvoidsStack s a (n + 3))
    (returnTo : Word) (status : Byte) (vector : Word) :
    (s.enterHandler returnTo status vector).read a = s.read a := by
  have hthird : AvoidsStack (s.push16 returnTo) a (n + 1) := (h.push8 _).push8 _
  have hpushes : ((s.push16 returnTo).push8 status).read a = s.read a := by
    rw [hthird.read_push8, h.read_push16]
  exact hpushes

/-- Every mnemonic that pushes: one byte, an address (R238), an address and the status (R256). -/
def kindsUsingPush : List Kind := kindsPushing ++ [.jsr, .brk]

/-- The mnemonics of a list without the pushing ones push nothing. -/
theorem pushCount_eq_zero {i : Instr} {part : List Kind} (hk : mnemonic i ∈ part)
    (hpart : ∀ k ∈ part, k ∉ kindsUsingPush) : pushCount i = 0 := by
  have hnot : mnemonic i ∉ kindsUsingPush := hpart _ hk
  simp only [kindsUsingPush, kindsPushing, List.mem_append, List.mem_cons, List.not_mem_nil, or_false, not_or] at hnot
  obtain ⟨⟨hpha, hphp⟩, hjsr, hbrk⟩ := hnot
  simp [pushCount, hpha, hphp, hjsr, hbrk]

/-- An instruction that pushes writes storage by its pushes alone. -/
theorem Effect.read_of_avoidsStack {i : Instr} {s u : State} (h : Effect i s u) (hp : 0 < pushCount i) {a : Word}
    (ha : AvoidsStack s a (pushCount i)) : u.read a = s.read a := by
  cases h with
  | store _ _ hk | count _ _ hk | shift _ _ hk => exact absurd (pushCount_eq_zero hk (by decide)) (Nat.ne_of_gt hp)
  | push v hk =>
    rw [show pushCount i = 1 from if_pos (List.contains_iff_mem.mpr hk)] at ha
    exact ha.read_push8 v
  | call pc hk =>
    rw [show pushCount i = 2 by simp [pushCount, hk]] at ha
    exact ha.read_push16 (s.pc - 1)
  | interrupt status hk =>
    rw [show pushCount i = 3 by simp [pushCount, hk]] at ha
    exact ha.read_enterHandler (s.pc + 1) status irqVector
  | _ => rfl

/-- Settles O47: the cells are counted from SP, which stands as before when PC has passed the instruction. -/
theorem pushesChangeStackCells : Obligations.PushesChangeStackCells := by
  intro i s t h hp a ha
  obtain ⟨u, n, hu, -, rfl⟩ := exec_effect h
  exact hu.read_of_avoidsStack hp ha

/-! ### The image -/

/-- The cell of the `n`-th byte of an image loaded at `a` (R66). -/
def imageCell (pf : Platform) (a : Word) (n : Nat) : Word := canon pf (a + BitVec.ofNat 16 n)

theorem imageCell_zero (pf : Platform) (a : Word) : imageCell pf a 0 = canon pf a :=
  congrArg (canon pf) (BitVec.add_zero a)

/-- The tail of an image is the image at the next address. -/
theorem imageCell_next (pf : Platform) (a : Word) (n : Nat) : imageCell pf (a + 1) n = imageCell pf a (n + 1) := by
  have haddr : a + 1 + BitVec.ofNat 16 n = a + BitVec.ofNat 16 (n + 1) := by
    rw [BitVec.ofNat_add]; bv_omega
  exact congrArg (canon pf) haddr

/-- A cell that no byte of the image names keeps its content. -/
theorem loadImage_get_other {pf : Platform} {k : Nat} (image : List Byte) (m : Memory) (a : Word)
    (h : ∀ n, n < image.length → (imageCell pf a n).toNat ≠ k) :
    Memory.get (loadImage pf m a image) k = Memory.get m k := by
  induction image generalizing m a with
  | nil => rfl
  | cons v rest ih =>
    have hfirst : k ≠ (canon pf a).toNat := imageCell_zero pf a ▸ (h 0 (Nat.zero_lt_succ _)).symm
    have hrest : ∀ n, n < rest.length → (imageCell pf (a + 1) n).toNat ≠ k := fun n hn =>
      imageCell_next pf a n ▸ h (n + 1) (Nat.succ_lt_succ hn)
    rw [loadImage, ih _ _ hrest, Memory.get_set_other m hfirst]

/-- The last byte of the image that names a cell decides its content. -/
theorem loadImage_get_last {pf : Platform} {v : Byte} (image : List Byte) {m : Memory} (hm : Memory.wf m = true)
    (a : Word) (n : Nat) (hv : image[n]? = some v)
    (hlast : ∀ k, n < k → k < image.length → imageCell pf a k ≠ imageCell pf a n) :
    Memory.get (loadImage pf m a image) (imageCell pf a n).toNat = v := by
  induction image generalizing m a n with
  | nil => exact absurd hv (by simp)
  | cons w rest ih =>
    rw [loadImage]
    cases n with
    | zero =>
      have hw : w = v := Option.some.inj hv
      have hrest : ∀ k, k < rest.length → (imageCell pf (a + 1) k).toNat ≠ (imageCell pf a 0).toNat :=
        fun k hk e =>
        hlast (k + 1) k.succ_pos (Nat.succ_lt_succ hk) (imageCell_next pf a k ▸ BitVec.eq_of_toNat_eq e)
      rw [loadImage_get_other rest _ _ hrest, imageCell_zero, Memory.get_set_same hm, hw]
    | succ n =>
      rw [← imageCell_next]
      refine ih (Memory.wf_set hm _ w (canon pf a).isLt) (a + 1) n hv fun k hnk hk => ?_
      rw [imageCell_next, imageCell_next]
      exact hlast (k + 1) (Nat.succ_lt_succ hnk) (Nat.succ_lt_succ hk)

/-- R66: creation refuses an image that does not fit, and nothing else (log 10). -/
theorem createSession_eq_none_iff (c : SessionParameters) :
    createSession c = none ↔ 65536 < c.loadAddress.toNat + c.image.length := by
  rw [createSession]
  split
  · next hfits => simpa using hfits
  · next hlong => simpa using hlong

/-- R341: the storage of a created session is that of `INIT_MEM` with the image loaded over it. -/
theorem createSession_mem {c : SessionParameters} {s : State} (h : createSession c = some s) :
    s.mem = loadImage c.platform (storeCells [] c.initMem) c.loadAddress c.image := by
  rw [createSession] at h
  split at h
  · exact congrArg State.mem (Option.some.inj h).symm
  · exact absurd h (Option.some_ne_none s).symm

/-- Settles O53: the refusal is creation's one test, and the cells are what `loadImage` leaves. -/
theorem imageIsLoaded : Obligations.ImageIsLoaded := by
  refine fun c => ⟨createSession_eq_none_iff c, fun s h => ?_⟩
  have hinit : Memory.wf (storeCells [] c.initMem) = true := storeCells_wf c.initMem rfl
  rw [createSession_mem h]
  exact ⟨fun n v hv hlast => loadImage_get_last c.image hinit c.loadAddress n hv hlast,
    fun k hk => loadImage_get_other c.image _ c.loadAddress hk⟩

end Sys2Proof.Proofs
end

