-- ==== Sys2Proof/Proofs/EncodingClaims.lean ====
section
/-! The decoder and the encoder agree (30_encoding.md R80 to R89). What a format makes of operand bytes is said once
(`Makes`); decoding is that relation read from the bytes, encoding the same relation read from the instruction. -/

namespace Sys2Proof.Proofs

/-! ### The lookup of an opcode byte's row -/

theorem pieceOf_subset_opcodeMap (op : Byte) : pieceOf op ⊆ opcodeMap := by
  rw [pieceOf]
  split <;> intro r hr <;> simp [opcodeMap, hr]

/-- R84: a row that is found is a row of the map, with the byte looked up. -/
theorem findRow_some {op : Byte} {r : OpcodeRow} (h : findRow op = some r) : r ∈ opcodeMap ∧ r.opcode = op :=
  ⟨pieceOf_subset_opcodeMap op (List.mem_of_find?_eq_some h), by simpa using List.find?_some h⟩

/-- Every row of the map is in the piece where the lookup of its byte searches. -/
theorem findRow_isSome_of_mem : ∀ r ∈ opcodeMap, (findRow r.opcode).isSome = true := by decide +kernel

/-- R88: the list is what the lookup leaves of the 256 bytes, in their order. -/
theorem undocumentedOpcodes_eq_filter :
    undocumentedOpcodes = (List.ofFn BitVec.ofFin).filter fun op => (findRow op).isNone := by decide +kernel

/-- R88: the bytes without a row are those of the list. -/
theorem findRow_eq_none_iff {op : Byte} : findRow op = none ↔ op ∈ undocumentedOpcodes := by
  have hbyte : op ∈ List.ofFn (BitVec.ofFin (w := 8)) := List.mem_ofFn.mpr ⟨op.toFin, rfl⟩
  rw [undocumentedOpcodes_eq_filter, List.mem_filter, Option.isNone_iff_eq_none, and_iff_right hbyte]

/-- No row of the map has a byte that the lookup does not find. -/
theorem opcode_ne_of_findRow_none {op : Byte} (h : findRow op = none) : ∀ r ∈ opcodeMap, r.opcode ≠ op := by
  rintro r hr rfl
  simpa [h] using findRow_isSome_of_mem r hr

/-- R86: the entry of a byte that has a row. -/
theorem decodeSpec_of_findRow_some {op : Byte} {r : OpcodeRow} (h : findRow op = some r) :
    decodeSpec op = ⟨r.kind, r.mode, r.baseCycles, r.pageCross, true⟩ := by
  rw [decodeSpec, h]

/-- R88: the entry of a byte that has none. -/
theorem decodeSpec_of_findRow_none {op : Byte} (h : findRow op = none) :
    decodeSpec op = ⟨.unimplemented, .implied, 0, false, false⟩ := by
  rw [decodeSpec, h]

theorem formatOf_of_findRow_some {op : Byte} {r : OpcodeRow} (h : findRow op = some r) : formatOf op = r.format := by
  rw [formatOf, h]

theorem formatOf_of_findRow_none {op : Byte} (h : findRow op = none) : formatOf op = .f1 (.unimplemented op) := by
  rw [formatOf, h]

/-! ### What a format makes of the operand bytes -/

/-- `Makes f i operand`: an instruction of format `f` with these operand bytes is `i` (R80, R82: the low byte first). -/
inductive Makes : Format → Instr → List Byte → Prop where
  | f1 (i : Instr) : Makes (.f1 i) i []
  | f2 (make : Byte → Instr) (nn : Byte) : Makes (.f2 make) (make nn) [nn]
  | f3 (make : Word → Instr) (hhll : Word) : Makes (.f3 make) (make hhll) [loByte hhll, hiByte hhll]

@[simp] theorem forall_makes_f1 {j : Instr} {P : Instr → List Byte → Prop} :
    (∀ i operand, Makes (.f1 j) i operand → P i operand) ↔ P j [] :=
  ⟨fun h => h _ _ (.f1 j), fun h _ _ hm => by cases hm; exact h⟩

@[simp] theorem forall_makes_f2 {make : Byte → Instr} {P : Instr → List Byte → Prop} :
    (∀ i operand, Makes (.f2 make) i operand → P i operand) ↔ ∀ nn, P (make nn) [nn] :=
  ⟨fun h nn => h _ _ (.f2 make nn), fun h _ _ hm => by cases hm; exact h _⟩

@[simp] theorem forall_makes_f3 {make : Word → Instr} {P : Instr → List Byte → Prop} :
    (∀ i operand, Makes (.f3 make) i operand → P i operand) ↔
      ∀ hhll, P (make hhll) [loByte hhll, hiByte hhll] :=
  ⟨fun h hhll => h _ _ (.f3 make hhll), fun h _ _ hm => by cases hm; exact h _⟩

/-! ### Decoding -/

/-- Decoding accepts the operand bytes its opcode byte's format makes an instruction of. -/
theorem decode_of_makes {op : Byte} {i : Instr} {operand : List Byte} (h : Makes (formatOf op) i operand)
    (rest : List Byte) : decode (op :: operand ++ rest) = .instr i rest := by
  generalize hf : formatOf op = f at h
  cases h <;> simp [decode, hf]

/-- Decoding accepts nothing else. -/
theorem makes_of_decode {bs rest : List Byte} {i : Instr} (h : decode bs = .instr i rest) :
    ∃ op operand, Makes (formatOf op) i operand ∧ bs = op :: operand ++ rest := by
  revert h
  fun_cases decode bs <;> intro h
  case case2 op j tail hf => cases h; exact ⟨op, [], hf ▸ .f1 _, rfl⟩
  case case3 op make nn tail hf => cases h; exact ⟨op, [nn], hf ▸ .f2 make nn, rfl⟩
  case case5 op make ll hh tail hf =>
    cases h
    exact ⟨op, [ll, hh], by simpa [hf] using Makes.f3 make (joinBytes hh ll), rfl⟩
  all_goals cases h

/-! ### Encoding -/

/-- R86: what the format of a row makes is an instruction, and the row's byte and the operand are its encoding.
The map is finite and the operand is not: one equation for each row, true for every operand by the encoder's own text. -/
theorem encode_of_row : ∀ r ∈ opcodeMap, ∀ i operand, Makes r.format i operand →
    i.WellFormed ∧ encode i = r.opcode :: operand := by
  simp only [opcodeMap, rows0x, rows1x, rows2x, rows3x, rows4x, rows5x, rows6x, rows7x, rows8x, rows9x, rowsAx, rowsBx,
    rowsCx, rowsDx, rowsEx, rowsFx, List.forall_mem_append, List.forall_mem_cons, List.not_mem_nil, false_imp_iff,
    implies_true, and_true, forall_makes_f1, forall_makes_f2, forall_makes_f3, forall_and]
  and_intros <;> intros <;> rfl

/-- The same of every opcode byte, those of R88 included. -/
theorem encode_of_makes {op : Byte} {i : Instr} {operand : List Byte} (h : Makes (formatOf op) i operand) :
    i.WellFormed ∧ encode i = op :: operand := by
  cases hr : findRow op with
  | some r =>
    obtain ⟨hmem, rfl⟩ := findRow_some hr
    exact encode_of_row r hmem i operand (formatOf_of_findRow_some hr ▸ h)
  | none =>
    rw [formatOf_of_findRow_none hr] at h
    cases h
    exact ⟨List.contains_iff_mem.mpr (findRow_eq_none_iff.mp hr), rfl⟩

/-- R89: every well-formed instruction, whatever its operand, is made by the format of its opcode byte. -/
theorem makes_of_wellFormed {i : Instr} (h : i.WellFormed) :
    ∃ op operand, encode i = op :: operand ∧ Makes (formatOf op) i operand := by
  cases i with
  | unimplemented op =>
    have hnone : findRow op = none := findRow_eq_none_iff.mpr (List.contains_iff_mem.mp h)
    exact ⟨op, [], rfl, formatOf_of_findRow_none hnone ▸ .f1 _⟩
  | tax | tay | txa | tya | tsx | txs | inx | iny | dex | dey
  | aslAccumulator | lsrAccumulator | rolAccumulator | rorAccumulator
  | rts | pha | pla | php | plp | brk | rti | nop | clc | sec | cli | sei | clv | cld | sed =>
    exact ⟨_, _, rfl, .f1 _⟩
  | ldaAbsolute hhll | ldaAbsoluteX hhll | ldaAbsoluteY hhll | ldxAbsolute hhll | ldxAbsoluteY hhll
  | ldyAbsolute hhll | ldyAbsoluteX hhll | staAbsolute hhll | staAbsoluteX hhll | staAbsoluteY hhll
  | stxAbsolute hhll | styAbsolute hhll | adcAbsolute hhll | adcAbsoluteX hhll | adcAbsoluteY hhll
  | sbcAbsolute hhll | sbcAbsoluteX hhll | sbcAbsoluteY hhll | incAbsolute hhll | incAbsoluteX hhll
  | decAbsolute hhll | decAbsoluteX hhll | andAbsolute hhll | andAbsoluteX hhll | andAbsoluteY hhll
  | oraAbsolute hhll | oraAbsoluteX hhll | oraAbsoluteY hhll | eorAbsolute hhll | eorAbsoluteX hhll
  | eorAbsoluteY hhll | bitAbsolute hhll | aslAbsolute hhll | aslAbsoluteX hhll | lsrAbsolute hhll
  | lsrAbsoluteX hhll | rolAbsolute hhll | rolAbsoluteX hhll | rorAbsolute hhll | rorAbsoluteX hhll
  | cmpAbsolute hhll | cmpAbsoluteX hhll | cmpAbsoluteY hhll | cpxAbsolute hhll | cpyAbsolute hhll
  | jmpAbsolute hhll | jmpIndirect hhll | jsr hhll =>
    exact ⟨_, _, rfl, .f3 _ hhll⟩
  | _ nn => exact ⟨_, _, rfl, .f2 _ nn⟩

/-! ### The statements -/

/-- Settles O1: the format that makes the instruction is the one decoding reads. -/
theorem decodeOfEncodeIsIdentity : Obligations.DecodeOfEncodeIsIdentity := by
  intro i rest h
  obtain ⟨op, operand, he, hm⟩ := makes_of_wellFormed h
  rw [he]
  exact decode_of_makes hm rest

/-- Settles O2: accepted bytes are those a format makes the instruction of, and the encoder writes them. -/
theorem decodedBytesAreTheEncoding : Obligations.DecodedBytesAreTheEncoding := by
  intro bs rest i h
  obtain ⟨op, operand, hm, rfl⟩ := makes_of_decode h
  obtain ⟨hwf, he⟩ := encode_of_makes hm
  exact ⟨hwf, by rw [he]⟩

/-- Settles O3: the lookup of a byte finds its row, or the byte is one of R88. -/
theorem everyByteHasExactlyOneEntry : Obligations.EveryByteHasExactlyOneEntry := by
  refine ⟨rfl, by decide +kernel, rfl, by decide +kernel, fun op => ?_⟩
  cases hr : findRow op with
  | some r =>
    have hrow := findRow_some hr
    have hspec := decodeSpec_of_findRow_some hr
    have hlisted : op ∉ undocumentedOpcodes := by simp [← findRow_eq_none_iff, hr]
    exact .inl ⟨⟨r, hrow⟩, hlisted, by rw [hspec], r, hrow.1, hrow.2, hspec⟩
  | none =>
    exact .inr ⟨opcode_ne_of_findRow_none hr, findRow_eq_none_iff.mp hr, decodeSpec_of_findRow_none hr⟩

/-- Settles O4: each word is the encoding of its instruction, so O1 decodes it. -/
theorem wordsDecodeAsTheTableSays : Obligations.WordsDecodeAsTheTableSays :=
  ⟨decodeOfEncodeIsIdentity (.ldaAbsoluteX 0x1234) [] rfl,
   decodeOfEncodeIsIdentity (.adcImmediate 0x10) [] rfl,
   decodeOfEncodeIsIdentity .rorAccumulator [] rfl,
   decodeOfEncodeIsIdentity (.cpyAbsolute 0x00FF) [] rfl,
   decodeOfEncodeIsIdentity (.bne 0xF7) [] rfl,
   decodeOfEncodeIsIdentity (.jmpIndirect 0x02FF) [] rfl,
   decodeOfEncodeIsIdentity .brk [0xEA] rfl,
   decodeOfEncodeIsIdentity (.unimplemented 0x02) [] (by decide)⟩

end Sys2Proof.Proofs
end

