-- ==== Sys2Proof/Proofs/StepClaims.lean ====
section
/-! The step (40_execution_core.md R111 to R127): the instruction the fetch gives is the one decoding gives, a call
completes or faults, and a fault once latched stays. -/

namespace Sys2Proof.Proofs

open Sys2Proof.Machine Sys2Proof.Claims

/-! ### The fetch (R113 to R115) -/

/-- The instruction of three bytes is made of an operand that they start with, after the opcode byte. -/
theorem makes_decodeBytes (op byte1 byte2 : Byte) :
    ∃ operand rest, Makes (formatOf op) (decodeBytes op byte1 byte2) operand ∧ operand ++ rest = [byte1, byte2] := by
  rw [decodeBytes]
  cases formatOf op with
  | f1 i => exact ⟨[], [byte1, byte2], .f1 i, rfl⟩
  | f2 make => exact ⟨[byte1], [byte2], .f2 make byte1, rfl⟩
  | f3 make => exact ⟨[byte1, byte2], [], by simpa using Makes.f3 make (joinBytes byte2 byte1), rfl⟩

/-- Decoding three bytes gives the instruction that the fetch makes of them. -/
theorem decodeBytes_of_decode {op byte1 byte2 : Byte} {i : Instr} {rest : List Byte}
    (h : decode [op, byte1, byte2] = .instr i rest) : decodeBytes op byte1 byte2 = i := by
  obtain ⟨operand, tail, hmakes, hbytes⟩ := makes_decodeBytes op byte1 byte2
  have hdecode : decode [op, byte1, byte2] = .instr (decodeBytes op byte1 byte2) tail :=
    hbytes ▸ decode_of_makes hmakes tail
  exact (Decoded.instr.inj (hdecode.symm.trans h)).1

/-- R88: the fetch gives the `Unimplemented` variant for the 105 bytes and for no other. -/
theorem fetch_eq_unimplemented_iff {s : State} {b : Byte} :
    s.fetch = .unimplemented b ↔ s.read s.pc = b ∧ b ∈ undocumentedOpcodes := by
  constructor
  · intro h
    obtain ⟨operand, -, hmakes, -⟩ := makes_decodeBytes (s.read s.pc) (s.read (s.pc + 1)) (s.read (s.pc + 2))
    rw [← State.fetch, h] at hmakes
    obtain ⟨hwf, hencode⟩ := encode_of_makes hmakes
    exact ⟨(List.cons.inj hencode).1.symm, List.contains_iff_mem.mp hwf⟩
  · rintro ⟨rfl, hlisted⟩
    rw [State.fetch, decodeBytes, formatOf_of_findRow_none (findRow_eq_none_iff.mpr hlisted)]

/-- R266: the `Unimplemented` variant faults with its byte. -/
theorem exec_unimplemented (op : Byte) (s : State) : exec (.unimplemented op) s = .fault (.unimplementedOpcode op) := rfl

/-- A fetched instruction that completes has a documented opcode byte. -/
theorem documented_of_exec_fetch {s t : State} (h : exec s.fetch s = .next t) :
    s.read s.pc ∉ undocumentedOpcodes := by
  intro hlisted
  rw [fetch_eq_unimplemented_iff.mpr ⟨rfl, hlisted⟩, exec_unimplemented] at h
  cases h

/-! ### The outcome of a step -/

/-- Settles O5: decoding at PC gives the fetched instruction, and its outcome is the step's. -/
theorem stepRunsTheDecodedInstruction : Obligations.StepRunsTheDecodedInstruction := by
  intro s i rest hrunning hdecode
  have hfetch : s.checkInterrupts.fetch = i := decodeBytes_of_decode hdecode
  subst hfetch
  rw [step_eq_outcome, callStep_running hrunning]
  obtain ⟨u, hu⟩ | ⟨b, -, hf⟩ := exec_completes_or_faults s.checkInterrupts.fetch s.checkInterrupts
  · rw [hu, runInstruction_next hu]; rfl
  · rw [hf, runInstruction_fault hf]; rfl

/-- Settles O6: the latch answers; or the fetched instruction completes; or it is the `Unimplemented` variant. -/
theorem stepHasOneOfTwoOutcomes : Obligations.StepHasOneOfTwoOutcomes := by
  intro s
  cases hh : s.halted with
  | some b =>
    have hcall : callStep s = .fault (.unimplementedOpcode b) s := callStep_halted hh
    exact .inr ⟨b, s, hcall, by rw [step_eq_outcome, hcall]; rfl, .inl rfl⟩
  | none =>
    rw [step_eq_outcome, callStep_running hh]
    obtain ⟨u, hu⟩ | ⟨b, hb, hf⟩ := exec_completes_or_faults s.checkInterrupts.fetch s.checkInterrupts
    · rw [runInstruction_next hu]
      exact .inl ⟨_, _, rfl, rfl, rfl, documented_of_exec_fetch hu⟩
    · rw [runInstruction_fault hf]
      exact .inr ⟨b, _, rfl, rfl, .inr ⟨rfl, fetch_eq_unimplemented_iff.mp hb⟩⟩

/-! ### What stays -/

/-- R127, R37: no host call takes the latch back. -/
theorem call_halted {s : State} {b : Byte} (h : s.halted = some b) (c : HostCall) : (s.call c).halted = some b := by
  cases c with
  | step => rw [State.call, callStep_halted h]; exact h
  | busWrite a v => exact (State.write_halted s a v).trans h
  | reset | requestNmi | requestIrq | startRecording => exact h

theorem calls_halted {s : State} {b : Byte} (h : s.halted = some b) (calls : List HostCall) :
    (s.calls calls).halted = some b := by
  induction calls generalizing s with
  | nil => exact h
  | cons c calls ih => exact ih (call_halted h c)

theorem step_halted {s : State} {b : Byte} (h : s.halted = some b) : step s = .fault (.unimplementedOpcode b) := by
  rw [step_eq_outcome, callStep_halted h]; rfl

/-- Settles O8: the latch answers a step, and the calls keep it, by induction on their sequence. -/
theorem haltedSessionStaysHalted : Obligations.HaltedSessionStaysHalted := by
  intro s b h
  refine ⟨callStep_halted h, rfl, rfl, call_halted h .reset, fun calls => ?_⟩
  have hcalls : (s.calls calls).halted = some b := calls_halted h calls
  exact ⟨hcalls, step_halted hcalls⟩

/-- Settles O42: every effect keeps the session state of R116. -/
theorem executeLeavesSessionStateAlone : Obligations.ExecuteLeavesSessionStateAlone := by
  intro i s t h
  obtain ⟨hnmi, hirq, hhalted, hplatform, hrecorder⟩ := exec_keepsSession h
  exact ⟨hnmi, hirq, hhalted, hplatform, hrecorder⟩

end Sys2Proof.Proofs
end

