-- ==== Sys2Proof/Proofs/AddressingClaims.lean ====
section
/-! The resolver's page test (41_addressing_modes.md R144) and what an instruction leaves of storage: the cell of its
resolved operand (R145), the cells it pushes to, or nothing (40_execution_core.md R116). -/

namespace Sys2Proof.Proofs

open Sys2Proof.Machine Sys2Proof.Claims

/-! ### The page crossing (R144) -/

/-- The high byte moves exactly when the low byte carries; past 0xFFFF it moves to 0. -/
theorem hiByte_ne_indexed_iff_carry (base : Word) (index : Byte) :
    hiByte base ≠ hiByte (base + zeroExtend16 index) ↔ 256 ≤ (loByte base).toNat + index.toNat := by
  have hbase : base.toNat < 65536 := base.isLt
  have hindex : index.toNat < 256 := index.isLt
  rw [Ne, ← BitVec.toNat_inj, hiByte_toNat, hiByte_toNat, loByte_toNat, BitVec.toNat_add, zeroExtend16_toNat]
  omega

theorem pageDiff_iff (a b : Word) : pageDiff a b = true ↔ hiByte a ≠ hiByte b := bne_iff_ne

/-- R138, R139, R142: what the three indexed modes share. -/
theorem indexed_resolvesIndexed (base : Word) (index : Byte) : resolvesIndexed (indexed base index) base index :=
  ⟨rfl, pageDiff_iff _ _, (pageDiff_iff _ _).trans (hiByte_ne_indexed_iff_carry base index)⟩

/-- Settles O49: the three modes are `indexed`, and every other mode answers `false`. -/
theorem pageCrossingIsACarry : Obligations.PageCrossingIsACarry := by
  intro s
  refine ⟨fun hhll => indexed_resolvesIndexed hhll s.x, fun hhll => indexed_resolvesIndexed hhll s.y,
    fun nn => indexed_resolvesIndexed (pointerAt s nn) s.y, fun m hcrossed => ?_⟩
  cases m with
  | absoluteX hhll => exact .inl ⟨hhll, rfl⟩
  | absoluteY hhll => exact .inr (.inl ⟨hhll, rfl⟩)
  | indirectY nn => exact .inr (.inr ⟨nn, rfl⟩)
  | zeroPage | zeroPageX | zeroPageY | absolute | indirect | indirectX | relative =>
    exact absurd hcrossed Bool.false_ne_true

/-! ### What an instruction leaves of storage -/

/-- `StorageEffect i s mem`: run in `s` (whose PC is past the instruction), `i` may leave the storage `mem`. Unlike
`Effect` it names the address: a storing form writes at its resolved operand. What a push leaves is not said here; see
`Effect.read_of_avoidsStack`. -/
inductive StorageEffect (i : Instr) (s : State) : Memory → Prop where
  | store (m : Addressing) (v : Byte) (hm : storeAddressing i = some m) :
      StorageEffect i s (s.write (resolve m s).ea v).mem
  | push (mem : Memory) (hs : storeAddressing i = none) (hp : 0 < pushCount i) : StorageEffect i s mem
  | keep : StorageEffect i s s.mem

theorem storing_storageEffect {i : Instr} {m : Addressing} (hm : storeAddressing i = some m) (value : State → Byte)
    (w : Word) (s : State) : StorageEffect i s (storing m value w s).state.mem :=
  .store m _ hm

theorem modifying_storageEffect {i : Instr} {m : Addressing} (hm : storeAddressing i = some m)
    (f : Byte → Byte → Byte × Byte) (w : Word) (s : State) :
    StorageEffect i s (modifying (.memory m) f w s).state.mem :=
  .store m _ hm

theorem branching_storageEffect (i : Instr) (cond : State → Bool) (nn : Byte) (w : Word) (s : State) :
    StorageEffect i s (branching cond nn w s).state.mem := by
  obtain ⟨pc, e⟩ := branching_state cond nn w s
  exact e ▸ .keep

/-- The body of every instruction leaves the storage that its target and its pushes allow. -/
theorem storageEffect_of_body {i : Instr} {body : Word → State → Executed} (h : bodyOf i = some body) (w : Word)
    (s : State) : StorageEffect i s (body w s).state.mem := by
  cases i with
  | staZeroPage | staZeroPageX | staAbsolute | staAbsoluteX | staAbsoluteY | staIndirectX | staIndirectY
  | stxZeroPage | stxZeroPageY | stxAbsolute | styZeroPage | styZeroPageX | styAbsolute =>
    cases h
    exact storing_storageEffect (by simp [storeAddressing, mnemonic, operandAddressing, encode, encodeF2, encodeF3])
      _ w s
  | incZeroPage | incZeroPageX | incAbsolute | incAbsoluteX | decZeroPage | decZeroPageX | decAbsolute
  | decAbsoluteX | aslZeroPage | aslZeroPageX | aslAbsolute | aslAbsoluteX | lsrZeroPage | lsrZeroPageX
  | lsrAbsolute | lsrAbsoluteX | rolZeroPage | rolZeroPageX | rolAbsolute | rolAbsoluteX | rorZeroPage
  | rorZeroPageX | rorAbsolute | rorAbsoluteX =>
    cases h
    exact modifying_storageEffect (by simp [storeAddressing, mnemonic, operandAddressing, encode, encodeF2, encodeF3])
      _ w s
  | pha | php | jsr | brk =>
    exact .push _ (by simp [storeAddressing, mnemonic]) (by simp [pushCount, mnemonic])
  | bpl nn | bmi nn | bvc nn | bvs nn | bcc nn | bcs nn | bne nn | beq nn =>
    cases h; exact branching_storageEffect _ _ nn w s
  | unimplemented => cases h
  | _ => cases h; exact .keep

theorem exec_storageEffect {i : Instr} {s t : State} (h : exec i s = .next t) :
    StorageEffect i (s.setPc (s.pc + BitVec.ofNat 16 i.length)) t.mem := by
  obtain ⟨body, n, hb, -, rfl⟩ := exec_next h
  exact storageEffect_of_body hb _ _

theorem StorageEffect.mem_eq {i : Instr} {s : State} {mem : Memory} (h : StorageEffect i s mem)
    (hs : storeAddressing i = none) (hp : pushCount i = 0) : mem = s.mem := by
  cases h with
  | store m v hm => exact absurd (hm.symm.trans hs) (Option.some_ne_none m)
  | push _ _ hpos => exact absurd hp (Nat.ne_of_gt hpos)
  | keep => rfl

/-- Settles O45: without a target and a push, the storage is kept, and a read sees nothing else that changes. -/
theorem otherInstructionsLeaveMemory : Obligations.OtherInstructionsLeaveMemory := by
  intro i s t h hs hp
  have hmem : t.mem = s.mem := (exec_storageEffect h).mem_eq hs hp
  exact ⟨hmem, State.read_congr hmem (exec_keepsSession h).platform⟩

/-- A storing form leaves every cell but that of its resolved operand (R53). -/
theorem StorageEffect.read_eq {i : Instr} {s t : State} {m : Addressing} {a : Word} (h : StorageEffect i s t.mem)
    (hplatform : t.platform = s.platform) (hm : storeAddressing i = some m)
    (ha : canon s.platform a ≠ canon s.platform (resolve m s).ea) : t.read a = s.read a := by
  generalize hmem : t.mem = mem at h
  cases h with
  | store m' v hm' =>
    obtain rfl : m' = m := Option.some.inj (hm'.symm.trans hm)
    have hread : t.read a = (s.write (resolve m' s).ea v).read a :=
      State.read_congr hmem (hplatform.trans (State.write_platform s _ v).symm) a
    rw [hread, State.read_write_other v ha]
  | push _ hs _ => exact absurd (hm.symm.trans hs) (Option.some_ne_none m)
  | keep => exact State.read_congr hmem hplatform a

/-- Settles O46: the target is resolved once PC has passed the instruction, which changes neither the parameters nor any
byte. -/
theorem storesChangeOneCell : Obligations.StoresChangeOneCell :=
  fun _ _ _ _ h hm _ ha => (exec_storageEffect h).read_eq (exec_keepsSession h).platform hm ha

end Sys2Proof.Proofs
end

