-- ==== Sys2Proof/Proofs/Completion.lean ====
section
/-! How an instruction completes (40_execution_core.md R112, S5 to S8), said once for each shape of body: from its
opcode byte, that byte's entry and its body to the words `completesAs` and `eightReadForms` of the statements. -/

namespace Sys2Proof.Proofs

open Sys2Proof.Machine Sys2Proof.Claims

/-- The instruction has this opcode byte, whose entry is `spec`, and runs `body`. -/
structure Runs (opcode : Byte) (i : Instr) (body : Word → State → Executed) (spec : InstructionSpec) : Prop where
  spec_eq : i.spec = spec
  body_eq : bodyOf i = some body
  opcode_eq : i.opcode = opcode

/-- The length of an instruction of mode `m` (R81), as PC advances by it. -/
def lengthOf (m : Mode) : Word := BitVec.ofNat 16 (1 + m.width)

/-- `f` does to a state what `after` says and leaves PC and CYC, on which it does not depend either. -/
def ActsAs (f after : State → State) : Prop :=
  ∀ (s : State) (pc : Word), f (s.setPc pc) = { after s with pc := pc, cyc := s.cyc }

section
variable {opcode : Byte} {i : Instr} {k : Kind} {m : Mode} {base : Nat}

/-- R112, R117: PC past the instruction, what the body leaves, the base cycles and the page-cross cycle. -/
theorem completesAs_of_runs {body : Word → State → Executed} {cross crossed : Bool} {s t : State}
    (h : Runs opcode i body ⟨k, m, base, cross, true⟩)
    (hbody : body s.pc (s.setPc (s.pc + lengthOf m)) =
      ⟨{ t with pc := s.pc + lengthOf m, cyc := s.cyc }, crossed, 0⟩) :
    completesAs opcode i s (lengthOf m) (base + if cross && crossed then 1 else 0) t := by
  refine ⟨h.opcode_eq, ?_⟩
  rw [exec_of_body h.body_eq, perform_eq h.spec_eq, length_eq, ← lengthOf, hbody]
  rfl

/-- R131: an instruction that works on registers, flags and stack only. -/
theorem completesAs_implied {f after : State → State} (h : Runs opcode i (implied f) ⟨k, .implied, base, false, true⟩)
    (hf : ActsAs f after) (s : State) : completesAs opcode i s 1 base (after s) :=
  completesAs_of_runs h (congrArg (Executed.mk · false 0) (hf s _))

/-! ### Stores -/

/-- A bus write does not depend on PC and leaves it, as it leaves CYC (R53). -/
theorem setPc_write (s : State) (pc a : Word) (v : Byte) :
    (s.setPc pc).write a v = { s.write a v with pc := pc, cyc := s.cyc } := by
  rw [State.write_eq, State.write_eq s, State.write_mem, State.write_mem]
  rfl

/-- R145, R154 to R156: a store writes the byte at its address and has no page-cross cycle, crossing or not. -/
theorem completesAs_storing {a : Addressing} {value : State → Byte}
    (h : Runs opcode i (storing a value) ⟨k, m, base, false, true⟩) (s : State) {ea : Word} {v : Byte}
    (ha : (resolve a (s.setPc (s.pc + lengthOf m))).ea = ea)
    (hv : value (s.setPc (s.pc + lengthOf m)) = v) :
    completesAs opcode i s (lengthOf m) base (s.write ea v) := by
  refine completesAs_of_runs h (crossed := (resolve a (s.setPc (s.pc + lengthOf m))).crossed) ?_
  rw [storing_eq, ha, hv, setPc_write]

/-! ### Reads -/

theorem crossCycle_indexed (b : Word) (index : Byte) :
    (if (indexed b index).crossed then 1 else 0) = crossing b index := by
  simp [crossing, indexed, pageDiff_iff]

variable {f : Byte → State → State} {after : State → Byte → State}

/-- R145: a read form without a page-cross cycle. -/
theorem completesAs_reading {src : Source} (h : Runs opcode i (reading src f) ⟨k, m, base, false, true⟩)
    (hf : ∀ v, ActsAs (f v) (after · v)) (s : State) {v : Byte} {crossed : Bool}
    (hv : readSource src (s.setPc (s.pc + lengthOf m)) = (v, crossed)) :
    completesAs opcode i s (lengthOf m) base (after s v) := by
  refine completesAs_of_runs h (crossed := crossed) ?_
  rw [reading_eq, hv, hf v]

/-- R138, R139, R142, R144: a read form with a page-cross cycle. -/
theorem completesAs_reading_indexed {a : Addressing}
    (h : Runs opcode i (reading (.memory a) f) ⟨k, m, base, true, true⟩)
    (hf : ∀ v, ActsAs (f v) (after · v)) (s : State) {b : Word} {index : Byte}
    (ha : resolve a (s.setPc (s.pc + lengthOf m)) = indexed b index) :
    completesAs opcode i s (lengthOf m) (base + crossing b index)
      (after s (s.read (b + zeroExtend16 index))) := by
  rw [← crossCycle_indexed]
  refine completesAs_of_runs h ?_
  rw [reading_eq, readSource, ha, hf]
  rfl

/-- The eight read forms run with the effect `f` on their operand, under the entries that R151, R171, R172, R191 to R193
and R211 give them. -/
structure RunsEightReads (k : Kind) (f : Byte → State → State) (immediate zeroPage zeroPageX : ByteForm)
    (absolute absoluteX absoluteY : WordForm) (indirectX indirectY : ByteForm) : Prop where
  immediate (nn : Byte) :
    Runs immediate.1 (immediate.2 nn) (reading (.immediate nn) f) ⟨k, .immediate, 2, false, true⟩
  zeroPage (nn : Byte) :
    Runs zeroPage.1 (zeroPage.2 nn) (reading (.memory (.zeroPage nn)) f) ⟨k, .zeroPage, 3, false, true⟩
  zeroPageX (nn : Byte) :
    Runs zeroPageX.1 (zeroPageX.2 nn) (reading (.memory (.zeroPageX nn)) f) ⟨k, .zeroPageX, 4, false, true⟩
  absolute (hhll : Word) :
    Runs absolute.1 (absolute.2 hhll) (reading (.memory (.absolute hhll)) f) ⟨k, .absolute, 4, false, true⟩
  absoluteX (hhll : Word) :
    Runs absoluteX.1 (absoluteX.2 hhll) (reading (.memory (.absoluteX hhll)) f) ⟨k, .absoluteX, 4, true, true⟩
  absoluteY (hhll : Word) :
    Runs absoluteY.1 (absoluteY.2 hhll) (reading (.memory (.absoluteY hhll)) f) ⟨k, .absoluteY, 4, true, true⟩
  indirectX (nn : Byte) :
    Runs indirectX.1 (indirectX.2 nn) (reading (.memory (.indirectX nn)) f) ⟨k, .indirectX, 6, false, true⟩
  indirectY (nn : Byte) :
    Runs indirectY.1 (indirectY.2 nn) (reading (.memory (.indirectY nn)) f) ⟨k, .indirectY, 5, true, true⟩

theorem eightReadForms_of_runs {immediate zeroPage zeroPageX indirectX indirectY : ByteForm}
    {absolute absoluteX absoluteY : WordForm}
    (h : RunsEightReads k f immediate zeroPage zeroPageX absolute absoluteX absoluteY indirectX indirectY)
    (hf : ∀ v, ActsAs (f v) (after · v)) :
    eightReadForms immediate zeroPage zeroPageX absolute absoluteX absoluteY indirectX indirectY after :=
  fun nn hhll s =>
    ⟨completesAs_reading (h.immediate nn) hf s rfl,
     completesAs_reading (h.zeroPage nn) hf s rfl,
     completesAs_reading (h.zeroPageX nn) hf s rfl,
     completesAs_reading (h.absolute hhll) hf s rfl,
     completesAs_reading_indexed (h.absoluteX hhll) hf s rfl,
     completesAs_reading_indexed (h.absoluteY hhll) hf s rfl,
     completesAs_reading (h.indirectX nn) hf s rfl,
     completesAs_reading_indexed (h.indirectY nn) hf s rfl⟩

end

end Sys2Proof.Proofs
end

