-- ==== Sys2Proof/Proofs/LoadStoreClaims.lean ====
section
/-! Load, store and transfer (42_load_store_transfer.md R150 to R162): for each form its body and its entry, and what
the mnemonic does. -/

namespace Sys2Proof.Proofs

open Sys2Proof.Machine Sys2Proof.Claims Sys2Proof.Laws

/-! ### Loads -/

theorem actsAs_loadA (v : Byte) : ActsAs (loadA v) fun s => { s with a := v, p := withZN s.p v } := fun _ _ => rfl

theorem actsAs_loadX (v : Byte) : ActsAs (loadX v) fun s => { s with x := v, p := withZN s.p v } := fun _ _ => rfl

theorem actsAs_loadY (v : Byte) : ActsAs (loadY v) fun s => { s with y := v, p := withZN s.p v } := fun _ _ => rfl

theorem lda_runsEightReads :
    RunsEightReads .lda loadA (0xA9, .ldaImmediate) (0xA5, .ldaZeroPage) (0xB5, .ldaZeroPageX) (0xAD, .ldaAbsolute)
      (0xBD, .ldaAbsoluteX) (0xB9, .ldaAbsoluteY) (0xA1, .ldaIndirectX) (0xB1, .ldaIndirectY) where
  immediate nn := ⟨spec_ldaImmediate nn, rfl, rfl⟩
  zeroPage nn := ⟨spec_ldaZeroPage nn, rfl, rfl⟩
  zeroPageX nn := ⟨spec_ldaZeroPageX nn, rfl, rfl⟩
  absolute hhll := ⟨spec_ldaAbsolute hhll, rfl, rfl⟩
  absoluteX hhll := ⟨spec_ldaAbsoluteX hhll, rfl, rfl⟩
  absoluteY hhll := ⟨spec_ldaAbsoluteY hhll, rfl, rfl⟩
  indirectX nn := ⟨spec_ldaIndirectX nn, rfl, rfl⟩
  indirectY nn := ⟨spec_ldaIndirectY nn, rfl, rfl⟩

/-- Settles O19: LDA has the eight read forms, and `loadA` is its effect. -/
theorem ldaLoadsAndSetsZN : Obligations.LdaLoadsAndSetsZN :=
  eightReadForms_of_runs lda_runsEightReads actsAs_loadA

/-- Settles O20: the indexed forms of LDX resolve with Y and those of LDY with X; the two in mode Absolute are
`indexed` and have a page-cross cycle. -/
theorem ldxAndLdyLoadAndSetZN : Obligations.LdxAndLdyLoadAndSetZN :=
  fun nn hhll s =>
    ⟨completesAs_reading ⟨spec_ldxImmediate nn, rfl, rfl⟩ actsAs_loadX s rfl,
     completesAs_reading ⟨spec_ldxZeroPage nn, rfl, rfl⟩ actsAs_loadX s rfl,
     completesAs_reading ⟨spec_ldxZeroPageY nn, rfl, rfl⟩ actsAs_loadX s rfl,
     completesAs_reading ⟨spec_ldxAbsolute hhll, rfl, rfl⟩ actsAs_loadX s rfl,
     completesAs_reading_indexed ⟨spec_ldxAbsoluteY hhll, rfl, rfl⟩ actsAs_loadX s rfl,
     completesAs_reading ⟨spec_ldyImmediate nn, rfl, rfl⟩ actsAs_loadY s rfl,
     completesAs_reading ⟨spec_ldyZeroPage nn, rfl, rfl⟩ actsAs_loadY s rfl,
     completesAs_reading ⟨spec_ldyZeroPageX nn, rfl, rfl⟩ actsAs_loadY s rfl,
     completesAs_reading ⟨spec_ldyAbsolute hhll, rfl, rfl⟩ actsAs_loadY s rfl,
     completesAs_reading_indexed ⟨spec_ldyAbsoluteX hhll, rfl, rfl⟩ actsAs_loadY s rfl⟩

/-! ### Stores -/

/-- Settles O21: each form is a store whose entry has no page-cross cycle. -/
theorem storesWriteTheRegister : Obligations.StoresWriteTheRegister :=
  fun nn hhll s =>
    ⟨completesAs_storing ⟨spec_staZeroPage nn, rfl, rfl⟩ s rfl rfl,
     completesAs_storing ⟨spec_staZeroPageX nn, rfl, rfl⟩ s rfl rfl,
     completesAs_storing ⟨spec_staAbsolute hhll, rfl, rfl⟩ s rfl rfl,
     completesAs_storing ⟨spec_staAbsoluteX hhll, rfl, rfl⟩ s rfl rfl,
     completesAs_storing ⟨spec_staAbsoluteY hhll, rfl, rfl⟩ s rfl rfl,
     completesAs_storing ⟨spec_staIndirectX nn, rfl, rfl⟩ s rfl rfl,
     completesAs_storing ⟨spec_staIndirectY nn, rfl, rfl⟩ s rfl rfl,
     completesAs_storing ⟨spec_stxZeroPage nn, rfl, rfl⟩ s rfl rfl,
     completesAs_storing ⟨spec_stxZeroPageY nn, rfl, rfl⟩ s rfl rfl,
     completesAs_storing ⟨spec_stxAbsolute hhll, rfl, rfl⟩ s rfl rfl,
     completesAs_storing ⟨spec_styZeroPage nn, rfl, rfl⟩ s rfl rfl,
     completesAs_storing ⟨spec_styZeroPageX nn, rfl, rfl⟩ s rfl rfl,
     completesAs_storing ⟨spec_styAbsolute hhll, rfl, rfl⟩ s rfl rfl⟩

/-! ### Transfers -/

theorem actsAs_transferAX : ActsAs transferAX fun s => { s with x := s.a, p := withZN s.p s.a } := fun _ _ => rfl

theorem actsAs_transferAY : ActsAs transferAY fun s => { s with y := s.a, p := withZN s.p s.a } := fun _ _ => rfl

theorem actsAs_transferXA : ActsAs transferXA fun s => { s with a := s.x, p := withZN s.p s.x } := fun _ _ => rfl

theorem actsAs_transferYA : ActsAs transferYA fun s => { s with a := s.y, p := withZN s.p s.y } := fun _ _ => rfl

theorem actsAs_transferSX : ActsAs transferSX fun s => { s with x := s.sp, p := withZN s.p s.sp } := fun _ _ => rfl

theorem actsAs_transferXS : ActsAs transferXS fun s => { s with sp := s.x } := fun _ _ => rfl

/-- Settles O22: six Implied instructions; TXS alone leaves the status word. -/
theorem transfersMoveAByte : Obligations.TransfersMoveAByte :=
  fun s =>
    ⟨completesAs_implied ⟨spec_tax, rfl, rfl⟩ actsAs_transferAX s,
     completesAs_implied ⟨spec_tay, rfl, rfl⟩ actsAs_transferAY s,
     completesAs_implied ⟨spec_txa, rfl, rfl⟩ actsAs_transferXA s,
     completesAs_implied ⟨spec_tya, rfl, rfl⟩ actsAs_transferYA s,
     completesAs_implied ⟨spec_tsx, rfl, rfl⟩ actsAs_transferSX s,
     completesAs_implied ⟨spec_txs, rfl, rfl⟩ actsAs_transferXS s⟩

end Sys2Proof.Proofs
end

