-- ==== Sys2Proof/Proofs/ModifyCompletion.lean ====
section
/-! How a read-modify-write instruction completes (41_addressing_modes.md R145): from its body and its entry to the words
`completesAs` and `fourModifyForms` of the statements. -/

namespace Sys2Proof.Proofs

open Sys2Proof.Machine Sys2Proof.Claims

section
variable {opcode : Byte} {i : Instr} {k : Kind} {m : Mode} {base : Nat} {f : Byte → Byte → Byte × Byte}

/-- R145: a form that works on memory reads the byte at its address, writes the result back, and has no page-cross cycle,
crossing or not. -/
theorem completesAs_modifying {a : Addressing} (h : Runs opcode i (modifying (.memory a) f) ⟨k, m, base, false, true⟩)
    (s : State) {ea : Word} (ha : (resolve a (s.setPc (s.pc + lengthOf m))).ea = ea) :
    completesAs opcode i s (lengthOf m) base { s.write ea (f s.p (s.read ea)).1 with p := (f s.p (s.read ea)).2 } := by
  refine completesAs_of_runs h (crossed := (resolve a (s.setPc (s.pc + lengthOf m))).crossed) ?_
  rw [modifying_memory, ha, setPc_write]
  rfl

/-- The four memory forms run `modifying` with `f`, under the entries that R173, R174 and R196 to R199 give them. -/
structure RunsFourModifies (k : Kind) (f : Byte → Byte → Byte × Byte) (zeroPage zeroPageX : ByteForm)
    (absolute absoluteX : WordForm) : Prop where
  zeroPage (nn : Byte) :
    Runs zeroPage.1 (zeroPage.2 nn) (modifying (.memory (.zeroPage nn)) f) ⟨k, .zeroPage, 5, false, true⟩
  zeroPageX (nn : Byte) :
    Runs zeroPageX.1 (zeroPageX.2 nn) (modifying (.memory (.zeroPageX nn)) f) ⟨k, .zeroPageX, 6, false, true⟩
  absolute (hhll : Word) :
    Runs absolute.1 (absolute.2 hhll) (modifying (.memory (.absolute hhll)) f) ⟨k, .absolute, 6, false, true⟩
  absoluteX (hhll : Word) :
    Runs absoluteX.1 (absoluteX.2 hhll) (modifying (.memory (.absoluteX hhll)) f) ⟨k, .absoluteX, 7, false, true⟩

theorem fourModifyForms_of_runs {zeroPage zeroPageX : ByteForm} {absolute absoluteX : WordForm}
    (h : RunsFourModifies k f zeroPage zeroPageX absolute absoluteX) :
    fourModifyForms zeroPage zeroPageX absolute absoluteX (fun s v => (f s.p v).1) (fun s v => (f s.p v).2) :=
  fun nn hhll s =>
    ⟨completesAs_modifying (h.zeroPage nn) s rfl,
     completesAs_modifying (h.zeroPageX nn) s rfl,
     completesAs_modifying (h.absolute hhll) s rfl,
     completesAs_modifying (h.absoluteX hhll) s rfl⟩

end

end Sys2Proof.Proofs
end

