-- ==== Sys2Proof/Proofs/SignedBytes.lean ====
section
/-! Bytes read as signed numbers, and when a sum of bytes leaves the signed range (43_arithmetic.md R179). -/

namespace Sys2Proof.Proofs

/-- Bit 7 of a byte is its sign. -/
theorem getLsbD_seven (v : Byte) : v.getLsbD 7 = decide (128 ≤ v.toNat) :=
  (BitVec.msb_eq_getLsbD_last v).symm.trans (BitVec.msb_eq_decide v)

theorem toInt_of_lt {v : Byte} (h : v.toNat < 128) : v.toInt = v.toNat := by
  rw [BitVec.toInt_eq_toNat_cond]; omega

theorem toInt_of_le {v : Byte} (h : 128 ≤ v.toNat) : v.toInt = v.toNat - 256 := by
  rw [BitVec.toInt_eq_toNat_cond]; omega

/-- Operands of different signs have a sum in range; of equal signs, it is out of range when the result's sign is the
other one. -/
theorem signs_iff_out_of_range (a m : Byte) {c : Nat} (hc : c ≤ 1) :
    (a.getLsbD 7 = m.getLsbD 7 ∧ a.getLsbD 7 ≠ (BitVec.ofNat 8 (a.toNat + m.toNat + c)).getLsbD 7) ↔
      a.toInt + m.toInt + (c : Int) < -128 ∨ 127 < a.toInt + m.toInt + (c : Int) := by
  have ha := a.isLt
  have hm := m.isLt
  simp only [getLsbD_seven, BitVec.toNat_ofNat, ne_eq, decide_eq_decide]
  rcases Nat.lt_or_ge a.toNat 128 with hsa | hsa <;> rcases Nat.lt_or_ge m.toNat 128 with hsm | hsm
  · rw [toInt_of_lt hsa, toInt_of_lt hsm]; omega
  · rw [toInt_of_lt hsa, toInt_of_le hsm]; omega
  · rw [toInt_of_le hsa, toInt_of_lt hsm]; omega
  · rw [toInt_of_le hsa, toInt_of_le hsm]; omega

/-! R172: `m xor 0xFF` as an unsigned and as a signed number. -/

theorem toNat_xor_FF (m : Byte) : (m ^^^ 0xFF).toNat = 255 - m.toNat := by
  rw [show (0xFF : Byte) = BitVec.allOnes 8 from rfl, BitVec.xor_allOnes, BitVec.toNat_not]

theorem toInt_xor_FF (m : Byte) : (m ^^^ 0xFF).toInt = -1 - m.toInt := by
  have := m.isLt
  have := toNat_xor_FF m
  rcases Nat.lt_or_ge m.toNat 128 with h | h
  · rw [toInt_of_lt h, toInt_of_le (by omega)]; omega
  · rw [toInt_of_le h, toInt_of_lt (by omega)]; omega

end Sys2Proof.Proofs
end

