-- ==== Sys2Proof/Proofs/ArithmeticClaims.lean ====
section
/-! Arithmetic (43_arithmetic.md R170 to R179): for each form its body and its entry, what each mnemonic does, and what
`Add` means as arithmetic on numbers. -/

namespace Sys2Proof.Proofs

open Sys2Proof.Machine Sys2Proof.Claims Sys2Proof.Laws

/-! ### INX, INY, DEX, DEY -/

theorem actsAs_incrementX : ActsAs incrementX fun s => { s with x := s.x + 1, p := withZN s.p (s.x + 1) } :=
  fun _ _ => rfl

theorem actsAs_incrementY : ActsAs incrementY fun s => { s with y := s.y + 1, p := withZN s.p (s.y + 1) } :=
  fun _ _ => rfl

theorem actsAs_decrementX : ActsAs decrementX fun s => { s with x := s.x - 1, p := withZN s.p (s.x - 1) } :=
  fun _ _ => rfl

theorem actsAs_decrementY : ActsAs decrementY fun s => { s with y := s.y - 1, p := withZN s.p (s.y - 1) } :=
  fun _ _ => rfl

/-- Settles O27: four Implied instructions, each of which acts on one index register and on Z and N. -/
theorem indexRegistersCount : Obligations.IndexRegistersCount :=
  fun s =>
    ⟨completesAs_implied ⟨spec_inx, rfl, rfl⟩ actsAs_incrementX s,
     completesAs_implied ⟨spec_iny, rfl, rfl⟩ actsAs_incrementY s,
     completesAs_implied ⟨spec_dex, rfl, rfl⟩ actsAs_decrementX s,
     completesAs_implied ⟨spec_dey, rfl, rfl⟩ actsAs_decrementY s⟩

/-! ### INC and DEC -/

theorem inc_runsFourModifies :
    RunsFourModifies .inc incremented (0xE6, .incZeroPage) (0xF6, .incZeroPageX) (0xEE, .incAbsolute)
      (0xFE, .incAbsoluteX) where
  zeroPage nn := ⟨spec_incZeroPage nn, rfl, rfl⟩
  zeroPageX nn := ⟨spec_incZeroPageX nn, rfl, rfl⟩
  absolute hhll := ⟨spec_incAbsolute hhll, rfl, rfl⟩
  absoluteX hhll := ⟨spec_incAbsoluteX hhll, rfl, rfl⟩

theorem dec_runsFourModifies :
    RunsFourModifies .dec decremented (0xC6, .decZeroPage) (0xD6, .decZeroPageX) (0xCE, .decAbsolute)
      (0xDE, .decAbsoluteX) where
  zeroPage nn := ⟨spec_decZeroPage nn, rfl, rfl⟩
  zeroPageX nn := ⟨spec_decZeroPageX nn, rfl, rfl⟩
  absolute hhll := ⟨spec_decAbsolute hhll, rfl, rfl⟩
  absoluteX hhll := ⟨spec_decAbsoluteX hhll, rfl, rfl⟩

/-- Settles O26: INC and DEC have the four read-modify-write forms; `incremented` and `decremented` are their effects. -/
theorem incDecModifyMemory : Obligations.IncDecModifyMemory :=
  ⟨fourModifyForms_of_runs inc_runsFourModifies, fourModifyForms_of_runs dec_runsFourModifies⟩

/-! ### The forms of ADC and SBC -/

/-- The model's `Add` is that of the statements, which write the carry in and the test of the signs otherwise. -/
theorem addOperand_eq_added (m : Byte) (s : State) : addOperand m s = added s m := by
  have hsum : s.a.toNat + m.toNat + (flag s.p carryBit).toNat = sumOf s m := by
    rw [sumOf, Bool.toNat, Bool.cond_eq_ite]
  simp [addOperand, addWithCarry, hsum, withSum, added, State.setA, State.setP, Bool.beq_eq_decide_eq, bne]

theorem actsAs_addOperand (m : Byte) : ActsAs (addOperand m) (added · m) :=
  fun s pc => addOperand_eq_added m (s.setPc pc)

theorem actsAs_subtractOperand (m : Byte) : ActsAs (subtractOperand m) (added · (m ^^^ 0xFF)) :=
  actsAs_addOperand (m ^^^ 0xFF)

theorem adc_runsEightReads :
    RunsEightReads .adc addOperand (0x69, .adcImmediate) (0x65, .adcZeroPage) (0x75, .adcZeroPageX)
      (0x6D, .adcAbsolute) (0x7D, .adcAbsoluteX) (0x79, .adcAbsoluteY) (0x61, .adcIndirectX)
      (0x71, .adcIndirectY) where
  immediate nn := ⟨spec_adcImmediate nn, rfl, rfl⟩
  zeroPage nn := ⟨spec_adcZeroPage nn, rfl, rfl⟩
  zeroPageX nn := ⟨spec_adcZeroPageX nn, rfl, rfl⟩
  absolute hhll := ⟨spec_adcAbsolute hhll, rfl, rfl⟩
  absoluteX hhll := ⟨spec_adcAbsoluteX hhll, rfl, rfl⟩
  absoluteY hhll := ⟨spec_adcAbsoluteY hhll, rfl, rfl⟩
  indirectX nn := ⟨spec_adcIndirectX nn, rfl, rfl⟩
  indirectY nn := ⟨spec_adcIndirectY nn, rfl, rfl⟩

theorem sbc_runsEightReads :
    RunsEightReads .sbc subtractOperand (0xE9, .sbcImmediate) (0xE5, .sbcZeroPage) (0xF5, .sbcZeroPageX)
      (0xED, .sbcAbsolute) (0xFD, .sbcAbsoluteX) (0xF9, .sbcAbsoluteY) (0xE1, .sbcIndirectX)
      (0xF1, .sbcIndirectY) where
  immediate nn := ⟨spec_sbcImmediate nn, rfl, rfl⟩
  zeroPage nn := ⟨spec_sbcZeroPage nn, rfl, rfl⟩
  zeroPageX nn := ⟨spec_sbcZeroPageX nn, rfl, rfl⟩
  absolute hhll := ⟨spec_sbcAbsolute hhll, rfl, rfl⟩
  absoluteX hhll := ⟨spec_sbcAbsoluteX hhll, rfl, rfl⟩
  absoluteY hhll := ⟨spec_sbcAbsoluteY hhll, rfl, rfl⟩
  indirectX nn := ⟨spec_sbcIndirectX nn, rfl, rfl⟩
  indirectY nn := ⟨spec_sbcIndirectY nn, rfl, rfl⟩

/-- Settles O23: ADC has the eight read forms, and `addOperand` is its effect. -/
theorem adcAddsWithCarry : Obligations.AdcAddsWithCarry :=
  eightReadForms_of_runs adc_runsEightReads actsAs_addOperand

/-! ### What `Add` leaves, as numbers (R179) -/

theorem carryIn_le_one (s : State) : carryIn s ≤ 1 := by
  unfold carryIn; split <;> decide

theorem sumOf_eq (s : State) (m : Byte) : sumOf s m = s.a.toNat + m.toNat + carryIn s := rfl

theorem added_a_toNat (s : State) (m : Byte) : (added s m).a.toNat = (s.a.toNat + m.toNat + carryIn s) % 256 :=
  BitVec.toNat_ofNat ..

/-- `Add` writes C and V before Z and N, which are other bits. -/
theorem flag_added_carry (s : State) (m : Byte) : flag (added s m).p carryBit = decide (255 < sumOf s m) := by
  simp [added, flag_withZN, flag_withFlag]

theorem flag_added_overflow (s : State) (m : Byte) :
    flag (added s m).p overflowBit =
      decide (s.a.getLsbD 7 = m.getLsbD 7 ∧ s.a.getLsbD 7 ≠ (BitVec.ofNat 8 (sumOf s m)).getLsbD 7) := by
  rw [added, flag_withZN _ _ (by decide), if_neg (by decide), if_neg (by decide), flag_withFlag _ _ _ (by decide),
    if_pos rfl]

theorem added_carry_iff (s : State) (m : Byte) :
    flag (added s m).p carryBit = true ↔ 256 ≤ s.a.toNat + m.toNat + carryIn s := by
  rw [flag_added_carry, decide_eq_true_iff, sumOf_eq, Nat.lt_iff_add_one_le]

theorem added_overflow_iff (s : State) (m : Byte) :
    flag (added s m).p overflowBit = true ↔
      s.a.toInt + m.toInt + (carryIn s : Int) < -128 ∨ 127 < s.a.toInt + m.toInt + (carryIn s : Int) := by
  rw [flag_added_overflow, decide_eq_true_iff, sumOf_eq, signs_iff_out_of_range s.a m (carryIn_le_one s)]

/-! ### SBC as a difference (R172) -/

/-- The borrow into a subtraction: 1 exactly when Carry is clear. -/
def borrowIn (s : State) : Nat := if flag s.p carryBit then 0 else 1

theorem carryIn_add_borrowIn (s : State) : carryIn s + borrowIn s = 1 := by
  unfold carryIn borrowIn; split <;> rfl

theorem subtracted_a (s : State) (m : Byte) :
    (added s (m ^^^ 0xFF)).a = s.a - m - BitVec.ofNat 8 (borrowIn s) := by
  have hb := carryIn_add_borrowIn s
  have ha := s.a.isLt
  have hm := m.isLt
  apply BitVec.eq_of_toNat_eq
  rw [added_a_toNat, toNat_xor_FF, BitVec.toNat_sub, BitVec.toNat_sub, BitVec.toNat_ofNat]
  omega

theorem subtracted_carry_iff (s : State) (m : Byte) :
    flag (added s (m ^^^ 0xFF)).p carryBit = true ↔ m.toNat + borrowIn s ≤ s.a.toNat := by
  have hb := carryIn_add_borrowIn s
  have hm := m.isLt
  rw [added_carry_iff, toNat_xor_FF]
  omega

theorem subtracted_overflow_iff (s : State) (m : Byte) :
    flag (added s (m ^^^ 0xFF)).p overflowBit = true ↔
      s.a.toInt - m.toInt - (borrowIn s : Int) < -128 ∨ 127 < s.a.toInt - m.toInt - (borrowIn s : Int) := by
  have hb := carryIn_add_borrowIn s
  rw [added_overflow_iff, toInt_xor_FF]
  omega

/-- Settles O24: SBC has the eight read forms; adding the ones' complement and the Carry subtracts the operand and the
borrow. -/
theorem sbcSubtractsWithBorrow : Obligations.SbcSubtractsWithBorrow :=
  ⟨eightReadForms_of_runs sbc_runsEightReads actsAs_subtractOperand,
   fun s m => ⟨subtracted_a s m, subtracted_carry_iff s m, subtracted_overflow_iff s m⟩⟩

/-! ### Every ADC instruction (R179) -/

/-- An instruction of mnemonic ADC adds the byte it reads, and `operandByte` is that byte. -/
theorem adc_reads_operandByte {i : Instr} (hwf : i.WellFormed) (hk : mnemonic i = .adc) :
    ∃ src, bodyOf i = some (reading src addOperand) ∧
      ∀ s, operandByte i s = some (readSource src (s.setPc (s.pc + BitVec.ofNat 16 i.length))).1 := by
  cases i with
  | adcImmediate | adcZeroPage | adcZeroPageX | adcAbsolute | adcAbsoluteX | adcAbsoluteY | adcIndirectX
  | adcIndirectY =>
    exact ⟨_, rfl, by simp [operandByte, operandAddressing, encode, encodeF2, encodeF3, readSource]⟩
  | unimplemented op =>
    obtain ⟨hkind, -⟩ := RowAgreement.unimplemented op hwf
    cases hkind.symm.trans hk
  | _ => simp [mnemonic] at hk

/-- An instruction of mnemonic ADC completes with `Add` of its operand (R171), PC and CYC apart. -/
theorem exec_adc {i : Instr} (hwf : i.WellFormed) (hk : mnemonic i = .adc) (s : State) :
    ∃ m pc n, operandByte i s = some m ∧ exec i s = .next ((added (s.setPc pc) m).addCyc n) := by
  obtain ⟨src, hbody, hoperand⟩ := adc_reads_operandByte hwf hk
  have hexec := exec_of_body hbody s
  rw [perform_eq (spec := i.spec) rfl, reading_eq, addOperand_eq_added] at hexec
  exact ⟨_, _, _, hoperand s, hexec⟩

/-- Settles O25: every ADC completes with `Add` of its operand, whose A, C and V do not depend on PC and CYC. -/
theorem additionCarryAndSignedOverflow : Obligations.AdditionCarryAndSignedOverflow := by
  intro i s hwf hk
  obtain ⟨m, pc, n, hoperand, hexec⟩ := exec_adc hwf hk s
  exact ⟨m, _, hoperand, hexec, added_a_toNat s m, added_carry_iff s m, added_overflow_iff s m⟩

end Sys2Proof.Proofs
end

