-- ==== Sys2Proof/Proofs/ShiftCompletion.lean ====
section
/-! How a shift or rotate completes in its five forms (44_logical_shift.md R195): from its bodies, its entries and what
its effect answers to the words `accumulatorForm` and `fourModifyForms` of the statements. -/

namespace Sys2Proof.Proofs

open Sys2Proof.Machine Sys2Proof.Claims

/-- From the status word of a state, `f` answers the result and the new status word of the statements. -/
def Answers (f : Byte → Byte → Byte × Byte) (result status : State → Byte → Byte) : Prop :=
  ∀ (s : State) (v : Byte), f s.p v = (result s v, status s v)

/-- R195: an effect that answers a shifted byte and `withShift` of it writes the outgoing bit to C, and Z and N from the
result. -/
theorem answers_of_shifted {f : Byte → Byte → Byte × Byte} {shifted : Byte → Byte → Shifted}
    {result : State → Byte → Byte} {carryOut : Byte → Bool}
    (hf : ∀ p v, f p v = ((shifted p v).result, withShift p (shifted p v)))
    (hshifted : ∀ s : State, ∀ v, shifted s.p v = ⟨result s v, carryOut v⟩) :
    Answers f result fun s v => shiftStatus s (carryOut v) (result s v) := by
  intro s v
  rw [hf, hshifted]
  rfl

section
variable {k : Kind} {f : Byte → Byte → Byte × Byte} {result status : State → Byte → Byte}

/-- R132: mode Accumulator works on A and leaves storage. -/
theorem accumulatorForm_of_answers {opcode : Byte} {i : Instr}
    (h : Runs opcode i (modifying .accumulator f) ⟨k, .accumulator, 2, false, true⟩) (hf : Answers f result status) :
    accumulatorForm opcode i result status := by
  intro s
  refine completesAs_of_runs h (crossed := false) ?_
  rw [modifying_accumulator, State.setPc_p, State.setPc_a, hf]
  rfl

theorem fourModifyForms_of_answers {zeroPage zeroPageX : ByteForm} {absolute absoluteX : WordForm}
    (h : RunsFourModifies k f zeroPage zeroPageX absolute absoluteX) (hf : Answers f result status) :
    fourModifyForms zeroPage zeroPageX absolute absoluteX result status := by
  obtain rfl : (fun s v => (f s.p v).1) = result := funext fun s => funext fun v => congrArg Prod.fst (hf s v)
  obtain rfl : (fun s v => (f s.p v).2) = status := funext fun s => funext fun v => congrArg Prod.snd (hf s v)
  exact fourModifyForms_of_runs h

end

end Sys2Proof.Proofs
end

