-- ==== Sys2Proof/Proofs/LogicalShiftClaims.lean ====
section
/-! Logical, bit test, shift and rotate (44_logical_shift.md R190 to R199): for each form its body and its entry, what
each mnemonic does, and what the shifts and rotates are as arithmetic on numbers. -/

namespace Sys2Proof.Proofs

open Sys2Proof.Machine Sys2Proof.Claims Sys2Proof.Laws

/-! ### AND, ORA, EOR -/

theorem actsAs_andOperand (m : Byte) :
    ActsAs (andOperand m) fun s => { s with a := s.a &&& m, p := withZN s.p (s.a &&& m) } := fun _ _ => rfl

theorem actsAs_orOperand (m : Byte) :
    ActsAs (orOperand m) fun s => { s with a := s.a ||| m, p := withZN s.p (s.a ||| m) } := fun _ _ => rfl

theorem actsAs_xorOperand (m : Byte) :
    ActsAs (xorOperand m) fun s => { s with a := s.a ^^^ m, p := withZN s.p (s.a ^^^ m) } := fun _ _ => rfl

theorem and_runsEightReads :
    RunsEightReads .and andOperand (0x29, .andImmediate) (0x25, .andZeroPage) (0x35, .andZeroPageX)
      (0x2D, .andAbsolute) (0x3D, .andAbsoluteX) (0x39, .andAbsoluteY) (0x21, .andIndirectX)
      (0x31, .andIndirectY) where
  immediate nn := ⟨spec_andImmediate nn, rfl, rfl⟩
  zeroPage nn := ⟨spec_andZeroPage nn, rfl, rfl⟩
  zeroPageX nn := ⟨spec_andZeroPageX nn, rfl, rfl⟩
  absolute hhll := ⟨spec_andAbsolute hhll, rfl, rfl⟩
  absoluteX hhll := ⟨spec_andAbsoluteX hhll, rfl, rfl⟩
  absoluteY hhll := ⟨spec_andAbsoluteY hhll, rfl, rfl⟩
  indirectX nn := ⟨spec_andIndirectX nn, rfl, rfl⟩
  indirectY nn := ⟨spec_andIndirectY nn, rfl, rfl⟩

theorem ora_runsEightReads :
    RunsEightReads .ora orOperand (0x09, .oraImmediate) (0x05, .oraZeroPage) (0x15, .oraZeroPageX)
      (0x0D, .oraAbsolute) (0x1D, .oraAbsoluteX) (0x19, .oraAbsoluteY) (0x01, .oraIndirectX)
      (0x11, .oraIndirectY) where
  immediate nn := ⟨spec_oraImmediate nn, rfl, rfl⟩
  zeroPage nn := ⟨spec_oraZeroPage nn, rfl, rfl⟩
  zeroPageX nn := ⟨spec_oraZeroPageX nn, rfl, rfl⟩
  absolute hhll := ⟨spec_oraAbsolute hhll, rfl, rfl⟩
  absoluteX hhll := ⟨spec_oraAbsoluteX hhll, rfl, rfl⟩
  absoluteY hhll := ⟨spec_oraAbsoluteY hhll, rfl, rfl⟩
  indirectX nn := ⟨spec_oraIndirectX nn, rfl, rfl⟩
  indirectY nn := ⟨spec_oraIndirectY nn, rfl, rfl⟩

theorem eor_runsEightReads :
    RunsEightReads .eor xorOperand (0x49, .eorImmediate) (0x45, .eorZeroPage) (0x55, .eorZeroPageX)
      (0x4D, .eorAbsolute) (0x5D, .eorAbsoluteX) (0x59, .eorAbsoluteY) (0x41, .eorIndirectX)
      (0x51, .eorIndirectY) where
  immediate nn := ⟨spec_eorImmediate nn, rfl, rfl⟩
  zeroPage nn := ⟨spec_eorZeroPage nn, rfl, rfl⟩
  zeroPageX nn := ⟨spec_eorZeroPageX nn, rfl, rfl⟩
  absolute hhll := ⟨spec_eorAbsolute hhll, rfl, rfl⟩
  absoluteX hhll := ⟨spec_eorAbsoluteX hhll, rfl, rfl⟩
  absoluteY hhll := ⟨spec_eorAbsoluteY hhll, rfl, rfl⟩
  indirectX nn := ⟨spec_eorIndirectX nn, rfl, rfl⟩
  indirectY nn := ⟨spec_eorIndirectY nn, rfl, rfl⟩

/-- Settles O30: AND, ORA and EOR have the eight read forms each, with the effects `andOperand`, `orOperand` and
`xorOperand`. -/
theorem logicalInstructionsCombineA : Obligations.LogicalInstructionsCombineA :=
  ⟨eightReadForms_of_runs and_runsEightReads actsAs_andOperand,
   eightReadForms_of_runs ora_runsEightReads actsAs_orOperand,
   eightReadForms_of_runs eor_runsEightReads actsAs_xorOperand⟩

/-! ### BIT -/

/-- R194: Z from the AND, N and V from the operand itself. -/
theorem actsAs_testBits (m : Byte) :
    ActsAs (testBits m) fun s =>
      { s with p := withFlag (withFlag (withFlag s.p 1 (decide (s.a &&& m = 0))) 7 (m.getLsbD 7)) 6 (m.getLsbD 6) } :=
  fun _ _ => rfl

/-- Settles O31: both forms read their operand once and `testBits` is their effect, which leaves A. -/
theorem bitTestsTheOperand : Obligations.BitTestsTheOperand :=
  fun nn hhll s =>
    ⟨completesAs_reading ⟨spec_bitZeroPage nn, rfl, rfl⟩ actsAs_testBits s rfl,
     completesAs_reading ⟨spec_bitAbsolute hhll, rfl, rfl⟩ actsAs_testBits s rfl⟩

/-! ### The memory forms of ASL, LSR, ROL, ROR (R195) -/

theorem asl_runsFourModifies :
    RunsFourModifies .asl shiftedLeft (0x06, .aslZeroPage) (0x16, .aslZeroPageX) (0x0E, .aslAbsolute)
      (0x1E, .aslAbsoluteX) where
  zeroPage nn := ⟨spec_aslZeroPage nn, rfl, rfl⟩
  zeroPageX nn := ⟨spec_aslZeroPageX nn, rfl, rfl⟩
  absolute hhll := ⟨spec_aslAbsolute hhll, rfl, rfl⟩
  absoluteX hhll := ⟨spec_aslAbsoluteX hhll, rfl, rfl⟩

theorem lsr_runsFourModifies :
    RunsFourModifies .lsr shiftedRight (0x46, .lsrZeroPage) (0x56, .lsrZeroPageX) (0x4E, .lsrAbsolute)
      (0x5E, .lsrAbsoluteX) where
  zeroPage nn := ⟨spec_lsrZeroPage nn, rfl, rfl⟩
  zeroPageX nn := ⟨spec_lsrZeroPageX nn, rfl, rfl⟩
  absolute hhll := ⟨spec_lsrAbsolute hhll, rfl, rfl⟩
  absoluteX hhll := ⟨spec_lsrAbsoluteX hhll, rfl, rfl⟩

theorem rol_runsFourModifies :
    RunsFourModifies .rol rotatedLeft (0x26, .rolZeroPage) (0x36, .rolZeroPageX) (0x2E, .rolAbsolute)
      (0x3E, .rolAbsoluteX) where
  zeroPage nn := ⟨spec_rolZeroPage nn, rfl, rfl⟩
  zeroPageX nn := ⟨spec_rolZeroPageX nn, rfl, rfl⟩
  absolute hhll := ⟨spec_rolAbsolute hhll, rfl, rfl⟩
  absoluteX hhll := ⟨spec_rolAbsoluteX hhll, rfl, rfl⟩

theorem ror_runsFourModifies :
    RunsFourModifies .ror rotatedRight (0x66, .rorZeroPage) (0x76, .rorZeroPageX) (0x6E, .rorAbsolute)
      (0x7E, .rorAbsoluteX) where
  zeroPage nn := ⟨spec_rorZeroPage nn, rfl, rfl⟩
  zeroPageX nn := ⟨spec_rorZeroPageX nn, rfl, rfl⟩
  absolute hhll := ⟨spec_rorAbsolute hhll, rfl, rfl⟩
  absoluteX hhll := ⟨spec_rorAbsoluteX hhll, rfl, rfl⟩

/-! ### Shifts as arithmetic (R196, R197) -/

theorem shiftLeft_eq (v : Byte) : shiftLeft v = ⟨BitVec.ofNat 8 (v.toNat * 2 % 256), v.getLsbD 7⟩ := by
  have hresult : v <<< 1 = BitVec.ofNat 8 (v.toNat * 2 % 256) :=
    BitVec.eq_of_toNat_eq (by
      rw [BitVec.toNat_shiftLeft, Nat.shiftLeft_eq, BitVec.toNat_ofNat, Nat.mod_mod])
  rw [shiftLeft, hresult]

theorem shiftRight_eq (v : Byte) : shiftRight v = ⟨BitVec.ofNat 8 (v.toNat / 2), v.getLsbD 0⟩ := by
  have hresult : v >>> 1 = BitVec.ofNat 8 (v.toNat / 2) :=
    BitVec.eq_of_toNat_eq (by
      rw [BitVec.toNat_ushiftRight, Nat.shiftRight_eq_div_pow, BitVec.toNat_ofNat]; omega)
  rw [shiftRight, hresult]

theorem shiftedLeft_answers :
    Answers shiftedLeft (fun _ v => BitVec.ofNat 8 (v.toNat * 2 % 256))
      fun s v => shiftStatus s (v.getLsbD 7) (BitVec.ofNat 8 (v.toNat * 2 % 256)) :=
  answers_of_shifted (fun _ _ => rfl) fun _ => shiftLeft_eq

theorem shiftedRight_answers :
    Answers shiftedRight (fun _ v => BitVec.ofNat 8 (v.toNat / 2))
      fun s v => shiftStatus s (v.getLsbD 0) (BitVec.ofNat 8 (v.toNat / 2)) :=
  answers_of_shifted (fun _ _ => rfl) fun _ => shiftRight_eq

/-- Settles O32: ASL and LSR have the five forms each; a shift left doubles modulo 256, a shift right halves. -/
theorem shiftsMoveOneBit : Obligations.ShiftsMoveOneBit :=
  ⟨accumulatorForm_of_answers ⟨spec_aslAccumulator, rfl, rfl⟩ shiftedLeft_answers,
   fourModifyForms_of_answers asl_runsFourModifies shiftedLeft_answers,
   accumulatorForm_of_answers ⟨spec_lsrAccumulator, rfl, rfl⟩ shiftedRight_answers,
   fourModifyForms_of_answers lsr_runsFourModifies shiftedRight_answers⟩

/-! ### Rotates as arithmetic (R198, R199) -/

/-- ROL is ASL with the old Carry added in the bit that the shift has cleared. -/
theorem rotateLeft_eq (s : State) (v : Byte) :
    rotateLeft (flag s.p carryBit) v = ⟨BitVec.ofNat 8 (v.toNat * 2 % 256 + carryIn s), v.getLsbD 7⟩ := by
  have hshift : v <<< 1 = BitVec.ofNat 8 (v.toNat * 2 % 256) := congrArg Shifted.result (shiftLeft_eq v)
  have hcarry : (if flag s.p carryBit then 0x01 else 0x00) = BitVec.ofNat 8 (carryIn s) := by
    unfold carryIn; split <;> rfl
  rw [rotateLeft, hshift, hcarry, ← BitVec.ofNat_add]

/-- ROR is LSR with the old Carry added in the bit that the shift has cleared. -/
theorem rotateRight_eq (s : State) (v : Byte) :
    rotateRight (flag s.p carryBit) v = ⟨BitVec.ofNat 8 (v.toNat / 2 + 128 * carryIn s), v.getLsbD 0⟩ := by
  have hshift : v >>> 1 = BitVec.ofNat 8 (v.toNat / 2) := congrArg Shifted.result (shiftRight_eq v)
  have hcarry : (if flag s.p carryBit then 0x80 else 0x00) = BitVec.ofNat 8 (128 * carryIn s) := by
    unfold carryIn; split <;> rfl
  rw [rotateRight, hshift, hcarry, ← BitVec.ofNat_add]

theorem rotatedLeft_answers :
    Answers rotatedLeft (fun s v => BitVec.ofNat 8 (v.toNat * 2 % 256 + carryIn s))
      fun s v => shiftStatus s (v.getLsbD 7) (BitVec.ofNat 8 (v.toNat * 2 % 256 + carryIn s)) :=
  answers_of_shifted (fun _ _ => rfl) rotateLeft_eq

theorem rotatedRight_answers :
    Answers rotatedRight (fun s v => BitVec.ofNat 8 (v.toNat / 2 + 128 * carryIn s))
      fun s v => shiftStatus s (v.getLsbD 0) (BitVec.ofNat 8 (v.toNat / 2 + 128 * carryIn s)) :=
  answers_of_shifted (fun _ _ => rfl) rotateRight_eq

/-- Settles O33: ROL and ROR have the five forms each; the old Carry enters where the shift has cleared a bit. -/
theorem rotatesGoThroughCarry : Obligations.RotatesGoThroughCarry :=
  ⟨accumulatorForm_of_answers ⟨spec_rolAccumulator, rfl, rfl⟩ rotatedLeft_answers,
   fourModifyForms_of_answers rol_runsFourModifies rotatedLeft_answers,
   accumulatorForm_of_answers ⟨spec_rorAccumulator, rfl, rfl⟩ rotatedRight_answers,
   fourModifyForms_of_answers ror_runsFourModifies rotatedRight_answers⟩

end Sys2Proof.Proofs
end

