-- ==== Sys2Proof/Proofs/CompareClaims.lean ====
section
/-! Compare (45_compare.md R210 to R213): for each form its body and its entry, and what `Compare` does with each of the
three registers. -/

namespace Sys2Proof.Proofs

open Sys2Proof.Machine Sys2Proof.Claims Sys2Proof.Laws

/-! ### `Compare(reg, m)` (R210): of the state the status word alone is written, and its old Carry bit is overwritten -/

theorem actsAs_compareA (m : Byte) : ActsAs (compareA m) fun s => compared s s.a m := fun _ _ => rfl

theorem actsAs_compareX (m : Byte) : ActsAs (compareX m) fun s => compared s s.x m := fun _ _ => rfl

theorem actsAs_compareY (m : Byte) : ActsAs (compareY m) fun s => compared s s.y m := fun _ _ => rfl

/-! ### CMP, CPX, CPY -/

theorem cmp_runsEightReads :
    RunsEightReads .cmp compareA (0xC9, .cmpImmediate) (0xC5, .cmpZeroPage) (0xD5, .cmpZeroPageX)
      (0xCD, .cmpAbsolute) (0xDD, .cmpAbsoluteX) (0xD9, .cmpAbsoluteY) (0xC1, .cmpIndirectX)
      (0xD1, .cmpIndirectY) where
  immediate nn := ⟨spec_cmpImmediate nn, rfl, rfl⟩
  zeroPage nn := ⟨spec_cmpZeroPage nn, rfl, rfl⟩
  zeroPageX nn := ⟨spec_cmpZeroPageX nn, rfl, rfl⟩
  absolute hhll := ⟨spec_cmpAbsolute hhll, rfl, rfl⟩
  absoluteX hhll := ⟨spec_cmpAbsoluteX hhll, rfl, rfl⟩
  absoluteY hhll := ⟨spec_cmpAbsoluteY hhll, rfl, rfl⟩
  indirectX nn := ⟨spec_cmpIndirectX nn, rfl, rfl⟩
  indirectY nn := ⟨spec_cmpIndirectY nn, rfl, rfl⟩

/-- Settles O34: CMP has the eight read forms, CPX and CPY the three without an index; `compareA`, `compareX` and
`compareY` are their effects. -/
theorem comparesSetFlagsOnly : Obligations.ComparesSetFlagsOnly :=
  ⟨eightReadForms_of_runs cmp_runsEightReads actsAs_compareA,
   fun nn hhll s =>
    ⟨completesAs_reading ⟨spec_cpxImmediate nn, rfl, rfl⟩ actsAs_compareX s rfl,
     completesAs_reading ⟨spec_cpxZeroPage nn, rfl, rfl⟩ actsAs_compareX s rfl,
     completesAs_reading ⟨spec_cpxAbsolute hhll, rfl, rfl⟩ actsAs_compareX s rfl,
     completesAs_reading ⟨spec_cpyImmediate nn, rfl, rfl⟩ actsAs_compareY s rfl,
     completesAs_reading ⟨spec_cpyZeroPage nn, rfl, rfl⟩ actsAs_compareY s rfl,
     completesAs_reading ⟨spec_cpyAbsolute hhll, rfl, rfl⟩ actsAs_compareY s rfl⟩⟩

end Sys2Proof.Proofs
end

