-- ==== Sys2Proof/Proofs/BranchClaims.lean ====
section
/-! Conditional branches (46_branch.md R220 to R229): how an instruction completes that ends at an address of its own,
and what a branch does when its condition holds and when it does not. -/

namespace Sys2Proof.Proofs

open Sys2Proof.Machine Sys2Proof.Claims Sys2Proof.Laws

section
variable {opcode : Byte} {i : Instr} {k : Kind} {m : Mode} {base : Nat}

/-- R112, R117: PC where the body leaves it, the base cycles and those the body adds; the entry has no page-cross cycle,
crossing or not. -/
theorem jumpsTo_of_runs {body : Word → State → Executed} {crossed : Bool} {extra : Nat} {s t : State} {pc : Word}
    (h : Runs opcode i body ⟨k, m, base, false, true⟩)
    (hbody : body s.pc (s.setPc (s.pc + lengthOf m)) = ⟨{ t with pc := pc, cyc := s.cyc }, crossed, extra⟩) :
    jumpsTo opcode i s pc (base + extra) t := by
  refine ⟨h.opcode_eq, ?_⟩
  rw [exec_of_body h.body_eq, perform_eq h.spec_eq, length_eq, ← lengthOf, hbody]
  rfl

end

/-- R229: the cycle a page test adds, written with the high bytes it compares. -/
theorem pageCycle_eq (target opaddr : Word) :
    (if pageDiff target opaddr then 1 else 0) = if hiByte target ≠ hiByte opaddr then 1 else 0 := by
  simp only [pageDiff_iff]

/-- R220, R229: a branch tests its condition once PC is past the instruction, so the condition must not depend on PC;
both outcomes are charged the base cycles, and the taken one alone adds to them. -/
theorem branchForm_of_runs {branch : ByteForm} {k : Kind} {cond test : State → Bool}
    (h : ∀ nn, Runs branch.1 (branch.2 nn) (branching cond nn) ⟨k, .relative, 2, false, true⟩)
    (hcond : ∀ (s : State) (pc : Word), cond (s.setPc pc) = test s) : branchForm branch test := by
  intro nn s
  constructor
  · intro htaken
    rw [← pageCycle_eq, Nat.add_assoc]
    exact jumpsTo_of_runs (h nn) (branching_taken ((hcond s _).trans htaken) nn s.pc)
  · intro hpassed
    exact jumpsTo_of_runs (h nn) (branching_not_taken ((hcond s _).trans hpassed) nn s.pc)

/-- Settles O35: each condition of R221 to R228 is one bit of the status word, which moving PC keeps. -/
theorem branchesTakeOrPass : Obligations.BranchesTakeOrPass :=
  ⟨branchForm_of_runs (fun nn => ⟨spec_bpl nn, rfl, rfl⟩) fun _ _ => rfl,
   branchForm_of_runs (fun nn => ⟨spec_bmi nn, rfl, rfl⟩) fun _ _ => rfl,
   branchForm_of_runs (fun nn => ⟨spec_bvc nn, rfl, rfl⟩) fun _ _ => rfl,
   branchForm_of_runs (fun nn => ⟨spec_bvs nn, rfl, rfl⟩) fun _ _ => rfl,
   branchForm_of_runs (fun nn => ⟨spec_bcc nn, rfl, rfl⟩) fun _ _ => rfl,
   branchForm_of_runs (fun nn => ⟨spec_bcs nn, rfl, rfl⟩) fun _ _ => rfl,
   branchForm_of_runs (fun nn => ⟨spec_bne nn, rfl, rfl⟩) fun _ _ => rfl,
   branchForm_of_runs (fun nn => ⟨spec_beq nn, rfl, rfl⟩) fun _ _ => rfl⟩

end Sys2Proof.Proofs
end

