-- ==== Sys2Proof/Proofs/StackFrames.lean ====
section
/-! What a bus write is apart from the storage it leaves (20_memory.md R53): it commutes with every change of an element
that it does not consult. From this, a run of pushes as bus writes at cells counted from SP (R60, R62). -/

namespace Sys2Proof.Proofs

open Sys2Proof.Machine Sys2Proof.Claims

/-! ### Bus writes under other changes of the state -/

/-- R53: the storage after a bus write, in terms of the two elements it depends on. -/
theorem write_eq_setMem (s : State) (a : Word) (v : Byte) :
    s.write a v =
      s.setMem (if mapped s.platform a && writable s.platform (canon s.platform a) then
        Memory.set s.mem (canon s.platform a).toNat v else s.mem) := by
  rw [← State.write_mem]
  exact State.write_eq s a v

theorem setSp_write (s : State) (sp : Byte) (a : Word) (v : Byte) :
    (s.setSp sp).write a v = (s.write a v).setSp sp := by
  rw [write_eq_setMem, write_eq_setMem s]; rfl

theorem setPc_write_comm (s : State) (pc a : Word) (v : Byte) : (s.setPc pc).write a v = (s.write a v).setPc pc := by
  rw [write_eq_setMem, write_eq_setMem s]; rfl

theorem setNmi_write (s : State) (b : Bool) (a : Word) (v : Byte) :
    (s.setNmi b).write a v = (s.write a v).setNmi b := by
  rw [write_eq_setMem, write_eq_setMem s]; rfl

theorem setIrq_write (s : State) (b : Bool) (a : Word) (v : Byte) :
    (s.setIrq b).write a v = (s.write a v).setIrq b := by
  rw [write_eq_setMem, write_eq_setMem s]; rfl

theorem setRecorder_write (s : State) (r : Recorder) (a : Word) (v : Byte) :
    (s.setRecorder r).write a v = (s.write a v).setRecorder r := by
  rw [write_eq_setMem, write_eq_setMem s]; rfl

/-! ### Pushes as bus writes -/

/-- R60. -/
theorem push8_eq_write (s : State) (v : Byte) : s.push8 v = (s.write (stackBelow s 0) v).setSp (s.sp - 1) := by
  have hcell : stackAddress s.sp = stackBelow s 0 := (stackBelow_zero s).symm
  rw [State.push8, hcell]

/-- R62: the high byte at SP, the low byte one below. -/
theorem push16_eq_writes (s : State) (w : Word) :
    s.push16 w =
      ((s.write (stackBelow s 0) (hiByte w)).write (stackBelow s 1) (loByte w)).setSp (s.sp - 2) := by
  have hsp : s.sp - 1 - 1 = s.sp - 2 := by bv_omega
  rw [State.push16, State.push8, push8_eq_write s, setSp_write, State.setSp_sp, hsp]
  rfl

/-- R256, R317: the frame of an interrupt entry. -/
theorem push16_push8_eq_pushedFrame (s : State) (w : Word) (status : Byte) :
    (s.push16 w).push8 status = (pushedFrame s w status).setSp (s.sp - 3) := by
  have hsp : s.sp - 2 - 1 = s.sp - 3 := by bv_omega
  rw [State.push8, push16_eq_writes, setSp_write, State.setSp_sp, hsp]
  rfl

@[simp] theorem pushedFrame_p (s : State) (w : Word) (status : Byte) : (pushedFrame s w status).p = s.p := by
  simp [pushedFrame]

@[simp] theorem pushedFrame_cyc (s : State) (w : Word) (status : Byte) : (pushedFrame s w status).cyc = s.cyc := by
  simp [pushedFrame]

/-- R256, R317: interrupt entry in one record. -/
theorem enterHandler_eq (s : State) (w : Word) (status : Byte) (vector : Word) :
    s.enterHandler w status vector =
      { pushedFrame s w status with
        sp := s.sp - 3
        p := withFlag s.p interruptBit true
        pc := joinBytes ((pushedFrame s w status).read (vector + 1)) ((pushedFrame s w status).read vector) } := by
  rw [State.enterHandler, push16_push8_eq_pushedFrame, ← pushedFrame_p s w status]
  rfl

/-! ### The stack cells -/

theorem stackBelow_inj {s : State} {n k : Byte} : stackBelow s n = stackBelow s k ↔ n = k := by
  rw [stackBelow, stackBelow, BitVec.add_right_inj, zeroExtend16_inj, BitVec.sub_right_inj]

/-- Above a stack pointer that has gone down by `n` stand the cells below the one it came from. -/
theorem stackAbove_eq_stackBelow {s t : State} {n : Byte} (h : t.sp = s.sp - n) (k : Byte) :
    stackAbove t k = stackBelow s (n - k) := by
  have hsp : t.sp + k = s.sp - (n - k) := by rw [h]; bv_omega
  rw [stackAbove, stackBelow, hsp]

/-! ### Flat RAM -/

/-- A state on flat RAM (R7) with canonical storage: what is written is read back. -/
structure FlatStorage (s : State) : Prop where
  flat : flatRam s.platform
  mem_wf : Memory.wf s.mem = true

namespace FlatStorage

variable {s : State}

theorem write (h : FlatStorage s) (a : Word) (v : Byte) : FlatStorage (s.write a v) :=
  ⟨State.write_platform s a v ▸ h.flat, State.write_wf h.mem_wf a v⟩

/-- R52, R53 where every address is a cell of its own. -/
theorem read_write (h : FlatStorage s) (a b : Word) (v : Byte) :
    (s.write a v).read b = if b = a then v else s.read b := by
  obtain ⟨hunmapped, hreadOnly, hmirrors⟩ := h.flat
  have hmapped (c : Word) : mapped s.platform c = true := by simp [mapped, hunmapped]
  have hwritable (c : Word) : writable s.platform c = true := by simp [writable, hreadOnly]
  have hcanon (c : Word) : canon s.platform c = c := by simp [canon, hmirrors, canonBy]
  rw [busReadAfterWrite s a b v h.mem_wf, if_neg (by simp [hmapped])]
  simp [hmapped, hwritable, hcanon]

/-- The two cells of a pushed address, whatever SP is. -/
theorem read_pushedWord (h : FlatStorage s) (hi lo : Byte) :
    let t := (s.write (stackBelow s 0) hi).write (stackBelow s 1) lo
    t.read (stackBelow s 0) = hi ∧ t.read (stackBelow s 1) = lo := by
  have hne : stackBelow s 0 ≠ stackBelow s 1 := by simp [stackBelow_inj]
  refine ⟨?_, ?_⟩
  · rw [(h.write _ _).read_write, if_neg hne, h.read_write, if_pos rfl]
  · rw [(h.write _ _).read_write, if_pos rfl]

/-- The three cells of an interrupt frame, whatever SP is. -/
theorem read_pushedFrame (h : FlatStorage s) (w : Word) (status : Byte) :
    (pushedFrame s w status).read (stackBelow s 0) = hiByte w ∧
    (pushedFrame s w status).read (stackBelow s 1) = loByte w ∧
    (pushedFrame s w status).read (stackBelow s 2) = status := by
  have hne0 : stackBelow s 0 ≠ stackBelow s 2 := by simp [stackBelow_inj]
  have hne1 : stackBelow s 1 ≠ stackBelow s 2 := by simp [stackBelow_inj]
  obtain ⟨hhigh, hlow⟩ := h.read_pushedWord (hiByte w) (loByte w)
  have hflat : FlatStorage ((s.write (stackBelow s 0) (hiByte w)).write (stackBelow s 1) (loByte w)) :=
    (h.write _ _).write _ _
  refine ⟨?_, ?_, ?_⟩
  · rw [pushedFrame, hflat.read_write, if_neg hne0, hhigh]
  · rw [pushedFrame, hflat.read_write, if_neg hne1, hlow]
  · rw [pushedFrame, hflat.read_write, if_pos rfl]

end FlatStorage

/-! ### A pulled status word -/

/-- R245, R257: the bits that a pull takes from the stack. -/
theorem flag_statusPulled {n : Nat} (p v : Byte) (hn : n < 8) (hbreak : n ≠ breakBit) (hunused : n ≠ unusedBit) :
    flag (statusPulled p v) n = flag v n := by
  have hmasks : ∀ n < 8, n ≠ breakBit → n ≠ unusedBit →
      (0xCF : Byte).getLsbD n = true ∧ (0x20 : Byte).getLsbD n = false ∧ (0x10 : Byte).getLsbD n = false := by
    decide
  obtain ⟨hCF, h20, h10⟩ := hmasks n hn hbreak hunused
  simp only [flag, statusPulled, BitVec.getLsbD_or, BitVec.getLsbD_and, hCF, h20, h10, Bool.and_true, Bool.and_false,
    Bool.or_false]

/-- A pull gives back the status word `p` that was pushed as `v`, bit 5 of `p` being 1, where P has bit 4 of `p`. -/
theorem statusPulled_eq_of_pushed {p q v : Byte} (hunused : flag p unusedBit = true)
    (hbreak : flag q breakBit = flag p breakBit)
    (hpushed : ∀ n < 8, n ≠ breakBit → n ≠ unusedBit → flag v n = flag p n) : statusPulled q v = p := by
  refine BitVec.eq_of_getLsbD_eq fun n hn => ?_
  change flag (statusPulled q v) n = flag p n
  by_cases h4 : n = breakBit
  · rw [h4, flag_statusPulled_break, hbreak]
  · by_cases h5 : n = unusedBit
    · rw [h5, flag_statusPulled_unused, hunused]
    · rw [flag_statusPulled q v hn h4 h5, hpushed n hn h4 h5]

/-- R244, R256: a push by an instruction writes bits 4 and 5 alone. -/
theorem flag_statusPushedByInstruction {n : Nat} (p : Byte) (hn : n < 8) (hbreak : n ≠ breakBit)
    (hunused : n ≠ unusedBit) : flag (statusPushedByInstruction p) n = flag p n := by
  have hmask : ∀ n < 8, n ≠ breakBit → n ≠ unusedBit → (0x30 : Byte).getLsbD n = false := by decide
  rw [flag, statusPushedByInstruction, BitVec.getLsbD_or, hmask n hn hbreak hunused, Bool.or_false, flag]

/-- R317: a push by a service writes bits 4 and 5 alone. -/
theorem flag_statusPushedByInterrupt {n : Nat} (p : Byte) (hn : n < 8) (hbreak : n ≠ breakBit)
    (hunused : n ≠ unusedBit) : flag (statusPushedByInterrupt p) n = flag p n := by
  have hmasks : ∀ n < 8, n ≠ breakBit → n ≠ unusedBit →
      (0xEF : Byte).getLsbD n = true ∧ (0x20 : Byte).getLsbD n = false := by decide
  obtain ⟨hEF, h20⟩ := hmasks n hn hbreak hunused
  rw [flag, statusPushedByInterrupt, BitVec.getLsbD_or, BitVec.getLsbD_and, hEF, h20, Bool.and_true, Bool.or_false,
    flag]

end Sys2Proof.Proofs
end

