-- ==== Sys2Proof/Proofs/JumpStackClaims.lean ====
section
/-! Jumps, calls, the stack instructions (47_jump_call_stack.md R235 to R245), BRK, RTI, NOP and the flag instructions
(48_system.md R256 to R265): for each its body and its entry, and what the mnemonic does. -/

namespace Sys2Proof.Proofs

open Sys2Proof.Machine Sys2Proof.Claims Sys2Proof.Laws

/-! ### Jumps -/

/-- R131, R112: an Implied instruction that leaves PC at an address of its own. -/
theorem jumpsTo_implied {opcode : Byte} {i : Instr} {k : Kind} {base : Nat} {f : State → State} {s t : State}
    {pc : Word} (h : Runs opcode i (implied f) ⟨k, .implied, base, false, true⟩)
    (hf : f (s.setPc (s.pc + 1)) = { t with pc := pc, cyc := s.cyc }) : jumpsTo opcode i s pc base t :=
  jumpsTo_of_runs h (congrArg (Executed.mk · false 0) hf)

/-- Settles O36: both forms load PC with the address they resolve, and do nothing else. -/
theorem jumpsReachTheirTarget : Obligations.JumpsReachTheirTarget :=
  fun hhll _ =>
    ⟨jumpsTo_of_runs ⟨spec_jmpAbsolute hhll, rfl, rfl⟩ rfl,
     jumpsTo_of_runs ⟨spec_jmpIndirect hhll, rfl, rfl⟩ rfl⟩

/-! ### JSR and RTS -/

/-- R238: JSR runs with PC past its three bytes and pushes the address of the last of them. -/
theorem callTo_eq (hhll : Word) (s : State) :
    callTo hhll (s.setPc (s.pc + 3)) =
      { (s.write (stackBelow s 0) (hiByte (s.pc + 2))).write (stackBelow s 1) (loByte (s.pc + 2)) with
        sp := s.sp - 2, pc := hhll, cyc := s.cyc } := by
  have hreturn : s.pc + 3 - 1 = s.pc + 2 := by bv_omega
  have hcyc : ((s.write (stackBelow s 0) (hiByte (s.pc + 2))).write (stackBelow s 1) (loByte (s.pc + 2))).cyc =
      s.cyc := by simp
  rw [callTo, State.setPc_pc, hreturn, push16_eq_writes, setPc_write_comm, setPc_write_comm, ← hcyc]
  rfl

theorem jsr_jumpsTo (hhll : Word) (s : State) :
    jumpsTo 0x20 (.jsr hhll) s hhll 6
      { (s.write (stackBelow s 0) (hiByte (s.pc + 2))).write (stackBelow s 1) (loByte (s.pc + 2)) with
        sp := s.sp - 2 } := by
  refine jumpsTo_of_runs (crossed := false) (extra := 0) ⟨spec_jsr hhll, rfl, rfl⟩ ?_
  exact congrArg (Executed.mk · false 0) (callTo_eq hhll s)

/-- R239: two pulls move SP by two. -/
theorem returnFromCall_eq (s : State) :
    returnFromCall s =
      { s with sp := s.sp + 2, pc := joinBytes (s.read (stackAbove s 2)) (s.read (stackAbove s 1)) + 1 } := by
  have hsp : s.sp + 1 + 1 = s.sp + 2 := by bv_omega
  rw [returnFromCall, State.pull16_state, State.pull16_value, hsp]
  rfl

theorem rts_jumpsTo (s : State) :
    jumpsTo 0x60 .rts s (joinBytes (s.read (stackAbove s 2)) (s.read (stackAbove s 1)) + 1) 6
      { s with sp := s.sp + 2 } :=
  jumpsTo_implied ⟨spec_rts, rfl, rfl⟩ (returnFromCall_eq (s.setPc (s.pc + 1)))

/-- Settles O37: JSR is two pushes and a jump, RTS two pulls and a jump. -/
theorem callPushesAndReturnPulls : Obligations.CallPushesAndReturnPulls :=
  fun hhll s => ⟨jsr_jumpsTo hhll s, rts_jumpsTo s⟩

/-! ### PHA, PLA, PHP and PLP -/

/-- R60: a push is one bus write and a step of SP, which do not consult PC. -/
theorem actsAs_push8 (value : State → Byte) (hvalue : ∀ s pc, value (s.setPc pc) = value s) :
    ActsAs (fun s => s.push8 (value s)) fun s => { s.write (stackBelow s 0) (value s) with sp := s.sp - 1 } := by
  intro s pc
  change (s.setPc pc).push8 (value (s.setPc pc)) = _
  rw [hvalue, push8_eq_write, setPc_write]
  rfl

theorem pha_completesAs (s : State) :
    completesAs 0x48 .pha s 1 3 { s.write (stackBelow s 0) s.a with sp := s.sp - 1 } :=
  completesAs_implied ⟨spec_pha, rfl, rfl⟩ (actsAs_push8 State.a fun _ _ => rfl) s

theorem pla_completesAs (s : State) :
    completesAs 0x68 .pla s 1 4
      { s with sp := s.sp + 1, a := s.read (stackAbove s 1), p := withZN s.p (s.read (stackAbove s 1)) } := by
  have hpull : ActsAs pullA fun s =>
      { s with sp := s.sp + 1, a := s.read (stackAbove s 1), p := withZN s.p (s.read (stackAbove s 1)) } :=
    fun _ _ => rfl
  exact completesAs_implied ⟨spec_pla, rfl, rfl⟩ hpull s

theorem php_completesAs (s : State) :
    completesAs 0x08 .php s 1 3 { s.write (stackBelow s 0) (s.p ||| 0x30) with sp := s.sp - 1 } :=
  completesAs_implied ⟨spec_php, rfl, rfl⟩ (actsAs_push8 (statusPushedByInstruction ·.p) fun _ _ => rfl) s

theorem plp_completesAs (s : State) :
    completesAs 0x28 .plp s 1 4 { s with sp := s.sp + 1, p := pulledStatus s (s.read (stackAbove s 1)) } := by
  have hpull : ActsAs pullStatus fun s =>
      { s with sp := s.sp + 1, p := pulledStatus s (s.read (stackAbove s 1)) } := fun _ _ => rfl
  exact completesAs_implied ⟨spec_plp, rfl, rfl⟩ hpull s

/-- Settles O38: two Implied instructions push a byte and two pull one. -/
theorem stackInstructionsMoveAByte : Obligations.StackInstructionsMoveAByte :=
  fun s => ⟨pha_completesAs s, pla_completesAs s, php_completesAs s, plp_completesAs s⟩

/-! ### NOP and the flag instructions -/

theorem actsAs_noOperation : ActsAs noOperation id := fun _ _ => rfl

/-- One bit of the status word written (R259 to R265). -/
theorem actsAs_setFlag (n : Nat) (b : Bool) : ActsAs (State.setFlag · n b) fun s => { s with p := withFlag s.p n b } :=
  fun _ _ => rfl

/-- Settles O29: eight Implied instructions; NOP acts on nothing, the others on one flag. -/
theorem nopAndFlagInstructions : Obligations.NopAndFlagInstructions :=
  fun s =>
    ⟨completesAs_implied ⟨spec_nop, rfl, rfl⟩ actsAs_noOperation s,
     completesAs_implied ⟨spec_clc, rfl, rfl⟩ (actsAs_setFlag carryBit false) s,
     completesAs_implied ⟨spec_sec, rfl, rfl⟩ (actsAs_setFlag carryBit true) s,
     completesAs_implied ⟨spec_cli, rfl, rfl⟩ (actsAs_setFlag interruptBit false) s,
     completesAs_implied ⟨spec_sei, rfl, rfl⟩ (actsAs_setFlag interruptBit true) s,
     completesAs_implied ⟨spec_clv, rfl, rfl⟩ (actsAs_setFlag overflowBit false) s,
     completesAs_implied ⟨spec_cld, rfl, rfl⟩ (actsAs_setFlag decimalBit false) s,
     completesAs_implied ⟨spec_sed, rfl, rfl⟩ (actsAs_setFlag decimalBit true) s⟩

/-! ### BRK and RTI -/

theorem setPc_pushedFrame (s : State) (pc w : Word) (status : Byte) :
    pushedFrame (s.setPc pc) w status = (pushedFrame s w status).setPc pc := by
  rw [pushedFrame, setPc_write_comm, setPc_write_comm, setPc_write_comm]
  rfl

/-- Settles O40: BRK runs with PC past its one byte and enters the handler of 0xFFFE, to return one byte further. -/
theorem brkEntersTheHandler : Obligations.BrkEntersTheHandler := by
  intro s m
  refine jumpsTo_implied ⟨spec_brk, rfl, rfl⟩ ?_
  have hreturn : s.pc + 1 + 1 = s.pc + 2 := by bv_omega
  have hcyc : m.cyc = s.cyc := pushedFrame_cyc s _ _
  rw [softwareInterrupt, State.setPc_pc, hreturn, enterHandler_eq, setPc_pushedFrame, ← hcyc]
  rfl

/-- R257: three pulls move SP by three. -/
theorem returnFromInterrupt_eq_pulledStatus (s : State) :
    s.returnFromInterrupt =
      { s with
        sp := s.sp + 3
        p := pulledStatus s (s.read (stackAbove s 1))
        pc := joinBytes (s.read (stackAbove s 3)) (s.read (stackAbove s 2)) } := by
  have hsecond : s.sp + 1 + 1 = s.sp + 2 := by bv_omega
  have hthird : s.sp + 2 + 1 = s.sp + 3 := by bv_omega
  rw [State.returnFromInterrupt_eq, hsecond, hthird]
  rfl

theorem rti_jumpsTo (s : State) :
    jumpsTo 0x40 .rti s (joinBytes (s.read (stackAbove s 3)) (s.read (stackAbove s 2))) 6
      { s with sp := s.sp + 3, p := pulledStatus s (s.read (stackAbove s 1)) } :=
  jumpsTo_implied ⟨spec_rti, rfl, rfl⟩ (returnFromInterrupt_eq_pulledStatus (s.setPc (s.pc + 1)))

/-- Settles O41: RTI is three pulls, the first into P, the others into PC. -/
theorem rtiPullsStatusThenPc : Obligations.RtiPullsStatusThenPc := rti_jumpsTo

/-! ### Pulls undo pushes -/

section
variable {s : State}

/-- R240: the address that JSR pushes is the one that RTS pulls and adds one to. -/
theorem rts_undoes_jsr (h : FlatStorage s) (hhll : Word) :
    ∃ t u, exec (.jsr hhll) s = .next t ∧ exec .rts t = .next u ∧ u.pc = s.pc + 3 ∧ u.sp = s.sp := by
  refine ⟨_, _, (jsr_jumpsTo hhll s).2, (rts_jumpsTo _).2, ?_, BitVec.sub_add_cancel s.sp 2⟩
  rw [stackAbove_eq_stackBelow (s := s) rfl, stackAbove_eq_stackBelow (s := s) rfl]
  obtain ⟨hhigh, hlow⟩ := h.read_pushedWord (hiByte (s.pc + 2)) (loByte (s.pc + 2))
  have hreturn : joinBytes (hiByte (s.pc + 2)) (loByte (s.pc + 2)) + 1 = s.pc + 3 := by
    rw [joinBytes_parts]; bv_omega
  exact (congrArg₂ (joinBytes · · + 1) hhigh hlow).trans hreturn

/-- The byte at SP that a push writes is the one that a pull reads. -/
theorem read_pushedByte (h : FlatStorage s) (v : Byte) : (s.write (stackBelow s 0) v).read (stackBelow s 0) = v := by
  rw [h.read_write, if_pos rfl]

/-- R242, R243. -/
theorem pla_undoes_pha (h : FlatStorage s) :
    ∃ t u, exec .pha s = .next t ∧ exec .pla t = .next u ∧ u.a = s.a ∧ u.sp = s.sp := by
  refine ⟨_, _, (pha_completesAs s).2, (pla_completesAs _).2, ?_, BitVec.sub_add_cancel s.sp 1⟩
  rw [stackAbove_eq_stackBelow (s := s) rfl]
  exact read_pushedByte h s.a

/-- R244, R245: the pushed copy differs from P in bits 4 and 5 only, which the pull does not take. -/
theorem plp_undoes_php (h : FlatStorage s) (hunused : flag s.p unusedBit = true) :
    ∃ t u, exec .php s = .next t ∧ exec .plp t = .next u ∧ u.p = s.p ∧ u.sp = s.sp := by
  refine ⟨_, _, (php_completesAs s).2, (plp_completesAs _).2, ?_, BitVec.sub_add_cancel s.sp 1⟩
  rw [stackAbove_eq_stackBelow (s := s) rfl]
  have hpulled : (s.write (stackBelow s 0) (s.p ||| 0x30)).read (stackBelow s 0) = statusPushedByInstruction s.p :=
    read_pushedByte h _
  have hp : (s.write (stackBelow s 0) (s.p ||| 0x30)).p = s.p := State.write_p s _ _
  exact (congrArg₂ statusPulled hp hpulled).trans
    (statusPulled_eq_of_pushed hunused rfl fun _ hn h4 h5 => flag_statusPushedByInstruction s.p hn h4 h5)

end

/-- Settles O39: after a push the cell at the old SP is the first above the new one, and on flat RAM it holds what was
pushed. -/
theorem pullsUndoPushes : Obligations.PullsUndoPushes := by
  intro hhll s hflat hwf hunused
  have h : FlatStorage s := ⟨hflat, hwf⟩
  exact ⟨rts_undoes_jsr h hhll, pla_undoes_pha h, plp_undoes_php h hunused⟩

end Sys2Proof.Proofs
end

