-- ==== Sys2Proof/Proofs/InterruptClaims.lean ====
section
/-! The interrupt check of a step (60_exceptions.md R316 to R319): what it serves, what a service leaves, what shows of
it in the entry of the step, and that RTI takes it back. -/

namespace Sys2Proof.Proofs

open Sys2Proof.Machine Sys2Proof.Claims

/-! ### The check -/

theorem checkInterrupts_of_nmi {s : State} (hn : s.nmiPending = true) :
    s.checkInterrupts = (s.setNmi false).service nmiVector := by
  rw [State.checkInterrupts, if_pos hn]

theorem checkInterrupts_of_irq {s : State} (hn : s.nmiPending = false) (hi : s.irqPending = true)
    (hf : flag s.p interruptBit = false) : s.checkInterrupts = (s.setIrq false).service irqVector := by
  simp [State.checkInterrupts, hn, hi, hf]

theorem checkInterrupts_of_none {s : State} (hn : s.nmiPending = false)
    (hi : s.irqPending = false ∨ flag s.p interruptBit = true) : s.checkInterrupts = s := by
  obtain hi | hf := hi
  · exact State.checkInterrupts_idle hn hi
  · exact checkInterrupts_masked hn hf

/-- R317: a service is an interrupt entry that returns to PC, and 7 cycles. -/
theorem service_eq_served (s : State) (vector : Word) : s.service vector = served s vector := by
  have hcyc : (pushedFrame s s.pc (statusPushedByInterrupt s.p)).cyc = s.cyc := pushedFrame_cyc s _ _
  rw [State.service, enterHandler_eq, served, ← hcyc]
  rfl

/-- Settles O15: each clause is a case of the check, and a service is what the statements call `served`. -/
theorem interruptCheckServesAtMostOne : Obligations.InterruptCheckServesAtMostOne :=
  fun _ =>
    ⟨fun hn => (checkInterrupts_of_nmi hn).trans (service_eq_served _ _),
     fun hn hi hf => (checkInterrupts_of_irq hn hi hf).trans (service_eq_served _ _),
     checkInterrupts_of_none⟩

/-! ### The entry of a step that serves -/

/-- R111, R112: a step that completes ran the instruction after the interrupt check, whose entry it gives. -/
theorem callStep_ok {s t : State} {e : TraceEntry} (h : callStep s = .ok e t) :
    s.halted = none ∧ e = s.checkInterrupts.entryAtPc ∧
      ∃ u, exec s.checkInterrupts.fetch s.checkInterrupts = .next u ∧ t = u.record e := by
  cases hh : s.halted with
  | some b => rw [callStep_halted hh] at h; cases h
  | none =>
    rw [callStep_running hh] at h
    obtain ⟨u, hu⟩ | ⟨b, -, hf⟩ := exec_completes_or_faults s.checkInterrupts.fetch s.checkInterrupts
    · rw [runInstruction_next hu] at h
      obtain ⟨rfl, rfl⟩ := StepResult.ok.inj h
      exact ⟨rfl, rfl, u, hu, rfl⟩
    · rw [runInstruction_fault hf] at h; cases h

/-- A service does not consult the pending flags. -/
theorem served_setNmi (s : State) (b : Bool) (vector : Word) :
    served (s.setNmi b) vector = (served s vector).setNmi b := by
  rw [served, pushedFrame, setNmi_write, setNmi_write, setNmi_write]
  rfl

theorem served_setIrq (s : State) (b : Bool) (vector : Word) :
    served (s.setIrq b) vector = (served s vector).setIrq b := by
  rw [served, pushedFrame, setIrq_write, setIrq_write, setIrq_write]
  rfl

/-- R319: a service sets bit 2 of the status word. -/
theorem flag_served (s : State) (vector : Word) : flag (served s vector).p interruptBit = true := by
  have hp : (served s vector).p = withFlag s.p interruptBit true := rfl
  rw [hp, flag_withFlag s.p interruptBit true (by decide), if_pos rfl]

/-- Settles O16: the entry is taken after the check, so it shows the state that the service left. -/
theorem serviceShowsInTheEntry : Obligations.ServiceShowsInTheEntry := by
  intro s t e h hpending
  obtain ⟨-, rfl, -⟩ := callStep_ok h
  cases hn : s.nmiPending with
  | true =>
    rw [checkInterrupts_of_nmi hn, service_eq_served, served_setNmi, if_pos rfl]
    exact ⟨rfl, flag_served s nmiVector, rfl, rfl⟩
  | false =>
    obtain ⟨hi, hf⟩ := hpending.resolve_left (ne_true_of_eq_false hn)
    rw [checkInterrupts_of_irq hn hi hf, service_eq_served, served_setIrq, if_neg Bool.false_ne_true]
    exact ⟨rfl, flag_served s irqVector, rfl, rfl⟩

/-! ### The return -/

/-- R318: the three cells of the frame, as RTI reads them, hold PC and the pushed status word. -/
theorem read_served_frame {s : State} (h : FlatStorage s) (vector : Word) :
    let t := served s vector
    t.read (stackAbove t 3) = hiByte s.pc ∧ t.read (stackAbove t 2) = loByte s.pc ∧
    t.read (stackAbove t 1) = statusPushedByInterrupt s.p := by
  intro t
  rw [stackAbove_eq_stackBelow (s := s) rfl, stackAbove_eq_stackBelow (s := s) rfl,
    stackAbove_eq_stackBelow (s := s) rfl]
  exact h.read_pushedFrame s.pc (statusPushedByInterrupt s.p)

/-- P after the pull: the pushed copy differs from the interrupted P in bits 4 and 5 only, and the service has kept bit
4 in P. -/
theorem statusPulled_of_service {p : Byte} (hunused : flag p unusedBit = true) :
    statusPulled (withFlag p interruptBit true) (statusPushedByInterrupt p) = p := by
  have hbreak : flag (withFlag p interruptBit true) breakBit = flag p breakBit := by
    rw [flag_withFlag p interruptBit true (by decide), if_neg (by decide)]
  exact statusPulled_eq_of_pushed hunused hbreak fun _ hn h4 h5 => flag_statusPushedByInterrupt p hn h4 h5

/-- Settles O17: RTI pulls the frame that the service pushed; neither writes A, X or Y. -/
theorem rtiUndoesAService : Obligations.RtiUndoesAService := by
  intro s vector hflat hwf hunused
  rw [service_eq_served]
  obtain ⟨hhigh, hlow, hstatus⟩ := read_served_frame ⟨hflat, hwf⟩ vector
  refine ⟨_, (rti_jumpsTo (served s vector)).2, ?_, ?_, BitVec.sub_add_cancel s.sp 3, ?_, ?_, ?_⟩
  · exact (congrArg₂ joinBytes hhigh hlow).trans (joinBytes_parts s.pc)
  · exact (congrArg (statusPulled _) hstatus).trans (statusPulled_of_service hunused)
  all_goals simp [served, pushedFrame]

end Sys2Proof.Proofs
end

