-- ==== Sys2Proof/Proofs/RecorderIndependence.lean ====
section
/-! Recording does not change the core (49_trace_verifier.md R283): no part of a step consults the recorder, so sessions
that differ in it alone stay so. -/

namespace Sys2Proof.Proofs

open Sys2Proof.Machine Sys2Proof.Claims

/-! ### Execute does not consult the recorder -/

/-- A body does the same, up to the recorder, whatever the recorder is. -/
def IgnoresRecorder (body : Word → State → Executed) : Prop :=
  ∀ (w : Word) (s : State) (r : Recorder),
    body w (s.setRecorder r) = { body w s with state := (body w s).state.setRecorder r }

theorem setRecorder_push8 (s : State) (r : Recorder) (v : Byte) :
    (s.setRecorder r).push8 v = (s.push8 v).setRecorder r := by
  rw [State.push8, setRecorder_write]; rfl

theorem setRecorder_push16 (s : State) (r : Recorder) (w : Word) :
    (s.setRecorder r).push16 w = (s.push16 w).setRecorder r := by
  rw [State.push16, setRecorder_push8, setRecorder_push8, State.push16]

theorem setRecorder_enterHandler (s : State) (r : Recorder) (returnTo : Word) (status : Byte) (vector : Word) :
    (s.setRecorder r).enterHandler returnTo status vector = (s.enterHandler returnTo status vector).setRecorder r := by
  rw [State.enterHandler, setRecorder_push16, setRecorder_push8]; rfl

theorem setRecorder_resolve (m : Addressing) (s : State) (r : Recorder) :
    resolve m (s.setRecorder r) = resolve m s := by
  cases m <;> rfl

theorem implied_ignoresRecorder {f : State → State} (hf : ∀ s r, f (s.setRecorder r) = (f s).setRecorder r) :
    IgnoresRecorder (implied f) :=
  fun _ s r => congrArg (Executed.mk · false 0) (hf s r)

theorem reading_ignoresRecorder (src : Source) {f : Byte → State → State}
    (hf : ∀ v s r, f v (s.setRecorder r) = (f v s).setRecorder r) : IgnoresRecorder (reading src f) := by
  intro w s r
  have hsource : readSource src (s.setRecorder r) = readSource src s := by
    cases src with
    | immediate nn => rfl
    | memory m => rw [readSource, setRecorder_resolve]; rfl
  rw [reading_eq, hsource, hf]; rfl

theorem storing_ignoresRecorder (m : Addressing) {value : State → Byte}
    (hvalue : ∀ s r, value (s.setRecorder r) = value s) : IgnoresRecorder (storing m value) := by
  intro w s r
  rw [storing_eq, setRecorder_resolve, hvalue, setRecorder_write]; rfl

theorem modifying_ignoresRecorder (m : Addressing) (f : Byte → Byte → Byte × Byte) :
    IgnoresRecorder (modifying (.memory m) f) := by
  intro w s r
  rw [modifying_memory, setRecorder_resolve, State.setRecorder_read, setRecorder_write]; rfl

theorem jumping_ignoresRecorder (m : Addressing) {f : Word → State → State}
    (hf : ∀ ea s r, f ea (s.setRecorder r) = (f ea s).setRecorder r) : IgnoresRecorder (jumping m f) := by
  intro w s r
  rw [jumping_eq, setRecorder_resolve, hf]; rfl

theorem branching_ignoresRecorder {cond : State → Bool} (hcond : ∀ s r, cond (s.setRecorder r) = cond s)
    (nn : Byte) : IgnoresRecorder (branching cond nn) := by
  intro w s r
  cases h : cond s with
  | false => rw [branching_not_taken h, branching_not_taken ((hcond s r).trans h)]
  | true => rw [branching_taken h, branching_taken ((hcond s r).trans h)]; rfl

/-- Every body ignores the recorder: by its shape, and by the effect that its mnemonic gives the shape. -/
theorem ignoresRecorder_of_body {i : Instr} {body : Word → State → Executed} (h : bodyOf i = some body) :
    IgnoresRecorder body := by
  cases i with
  | staZeroPage | staZeroPageX | staAbsolute | staAbsoluteX | staAbsoluteY | staIndirectX | staIndirectY
  | stxZeroPage | stxZeroPageY | stxAbsolute | styZeroPage | styZeroPageX | styAbsolute =>
    cases h; exact storing_ignoresRecorder _ fun _ _ => rfl
  | incZeroPage | incZeroPageX | incAbsolute | incAbsoluteX | decZeroPage | decZeroPageX | decAbsolute
  | decAbsoluteX | aslZeroPage | aslZeroPageX | aslAbsolute | aslAbsoluteX | lsrZeroPage | lsrZeroPageX
  | lsrAbsolute | lsrAbsoluteX | rolZeroPage | rolZeroPageX | rolAbsolute | rolAbsoluteX | rorZeroPage
  | rorZeroPageX | rorAbsolute | rorAbsoluteX =>
    cases h; exact modifying_ignoresRecorder _ _
  | bpl nn | bmi nn | bvc nn | bvs nn | bcc nn | bcs nn | bne nn | beq nn =>
    cases h; exact branching_ignoresRecorder (fun _ _ => rfl) nn
  | jmpAbsolute | jmpIndirect => cases h; exact jumping_ignoresRecorder _ fun _ _ _ => rfl
  | jsr =>
    cases h
    exact jumping_ignoresRecorder _ fun ea s r => congrArg (State.setPc · ea) (setRecorder_push16 s r (s.pc - 1))
  | pha => cases h; exact implied_ignoresRecorder fun s r => setRecorder_push8 s r s.a
  | php => cases h; exact implied_ignoresRecorder fun s r => setRecorder_push8 s r (statusPushedByInstruction s.p)
  | brk =>
    cases h
    exact implied_ignoresRecorder fun s r =>
      setRecorder_enterHandler s r (s.pc + 1) (statusPushedByInstruction s.p) irqVector
  | tax | tay | txa | tya | tsx | txs | inx | iny | dex | dey | rts | pla | plp | rti | nop | clc | sec | cli | sei
  | clv | cld | sed =>
    cases h; exact implied_ignoresRecorder fun _ _ => rfl
  | aslAccumulator | lsrAccumulator | rolAccumulator | rorAccumulator => cases h; exact fun _ _ _ => rfl
  | unimplemented => cases h
  | _ => cases h; exact reading_ignoresRecorder _ fun _ _ _ => rfl

/-- An instruction that completes does so whatever the recorder is, and leaves the same state up to the recorder. -/
theorem exec_setRecorder {i : Instr} {s t : State} (h : exec i s = .next t) (r : Recorder) :
    exec i (s.setRecorder r) = .next (t.setRecorder r) := by
  obtain ⟨body, n, hb, -, -⟩ := exec_next h
  rw [exec_of_body hb] at h
  obtain rfl := Host.Outcome.next.inj h
  rw [exec_of_body hb, perform_eq rfl]
  have hbody := ignoresRecorder_of_body hb s.pc (s.setPc (s.pc + BitVec.ofNat 16 (decodeSpec i.opcode).length)) r
  exact congrArg (fun d : Executed => Host.Outcome.next (d.state.addCyc (cyclesOf (decodeSpec i.opcode) d))) hbody

/-! ### A step does not consult the recorder -/

theorem setRecorder_service (s : State) (r : Recorder) (vector : Word) :
    (s.setRecorder r).service vector = (s.service vector).setRecorder r :=
  congrArg (State.addCyc · serviceCycles)
    (setRecorder_enterHandler s r s.pc (statusPushedByInterrupt s.p) vector)

theorem setRecorder_checkInterrupts (s : State) (r : Recorder) :
    (s.setRecorder r).checkInterrupts = s.checkInterrupts.setRecorder r := by
  obtain ⟨hn, e⟩ | ⟨hn, hi, hf, e⟩ | ⟨hn, hi, e⟩ := s.checkInterrupts_cases
  · rw [e, checkInterrupts_of_nmi (s := s.setRecorder r) hn, ← setRecorder_service]; rfl
  · rw [e, checkInterrupts_of_irq (s := s.setRecorder r) hn hi hf, ← setRecorder_service]; rfl
  · rw [e, checkInterrupts_of_none (s := s.setRecorder r) hn hi]

/-- Two sessions that differ in the recorder alone. -/
def SameCore (s t : State) : Prop := ∃ r, t = s.setRecorder r

theorem SameCore.record {s t : State} (h : SameCore s t) (e : TraceEntry) : SameCore (s.record e) (t.record e) := by
  obtain ⟨r, rfl⟩ := h
  obtain ⟨rs, hs⟩ := s.record_eq e
  obtain ⟨rt, ht⟩ := (s.setRecorder r).record_eq e
  exact ⟨rt, by rw [ht, hs]; rfl⟩

theorem SameCore.setRecorder_eq {s t : State} (h : SameCore s t) (r : Recorder) :
    t.setRecorder r = s.setRecorder r := by
  obtain ⟨_, rfl⟩ := h; rfl

/-- R111, R112: the calls of `step()` of two such sessions have the same outcome, entry or fault, and leave two such
sessions. -/
theorem SameCore.callStep_cases {s t : State} (h : SameCore s t) :
    (∃ e u v, callStep s = .ok e u ∧ callStep t = .ok e v ∧ SameCore u v) ∨
    (∃ f u v, callStep s = .fault f u ∧ callStep t = .fault f v ∧ SameCore u v) := by
  obtain ⟨r, rfl⟩ := h
  cases hh : s.halted with
  | some b => exact .inr ⟨_, s, s.setRecorder r, callStep_halted hh, callStep_halted hh, r, rfl⟩
  | none =>
    have hfetch : (s.checkInterrupts.setRecorder r).fetch = s.checkInterrupts.fetch := rfl
    rw [callStep_running hh, callStep_running (s := s.setRecorder r) hh, setRecorder_checkInterrupts]
    obtain ⟨u, hu⟩ | ⟨b, hb, hf⟩ := exec_completes_or_faults s.checkInterrupts.fetch s.checkInterrupts
    · have hu' := exec_setRecorder hu r
      rw [runInstruction_next hu, runInstruction_next (hfetch ▸ hu')]
      exact .inl ⟨_, _, _, rfl, rfl, SameCore.record ⟨r, rfl⟩ _⟩
    · have hf' : exec (s.checkInterrupts.setRecorder r).fetch (s.checkInterrupts.setRecorder r) =
          .fault (.unimplementedOpcode b) := by rw [hfetch, hb, exec_unimplemented]
      rw [runInstruction_fault hf, runInstruction_fault hf']
      exact .inr ⟨_, _, _, rfl, rfl, r, rfl⟩

theorem SameCore.call {s t : State} (h : SameCore s t) (c : HostCall) : SameCore (s.call c) (t.call c) := by
  cases c with
  | step =>
    obtain ⟨e, u, v, hs, ht, huv⟩ | ⟨f, u, v, hs, ht, huv⟩ := h.callStep_cases
    · rw [State.call, State.call, hs, ht]; exact huv
    · rw [State.call, State.call, hs, ht]; exact huv
  | reset | requestNmi | requestIrq => obtain ⟨r, rfl⟩ := h; exact ⟨r, rfl⟩
  | startRecording => obtain ⟨r, rfl⟩ := h; exact ⟨{ r with recording := true }, rfl⟩
  | busWrite a v => obtain ⟨r, rfl⟩ := h; exact ⟨r, setRecorder_write s r a v⟩

theorem SameCore.calls {s t : State} (h : SameCore s t) (calls : List HostCall) :
    SameCore (s.calls calls) (t.calls calls) := by
  induction calls generalizing s t with
  | nil => exact h
  | cons c calls ih => exact ih (h.call c)

/-- Settles O56: every host call takes sessions that differ in the recorder alone to such sessions, by induction on the
sequence; so does the step after them. -/
theorem recordingDoesNotChangeTheCore : Obligations.RecordingDoesNotChangeTheCore := by
  intro s r r0 calls
  have hcalls : SameCore (s.calls calls) ((s.setRecorder r).calls calls) := SameCore.calls ⟨r, rfl⟩ calls
  refine ⟨hcalls.setRecorder_eq r0, ?_⟩
  rw [step_eq_outcome, step_eq_outcome]
  obtain ⟨e, u, v, hs, ht, huv⟩ | ⟨f, u, v, hs, ht, -⟩ := hcalls.callStep_cases
  · rw [hs, ht]; exact (huv.setRecorder_eq r0).symm
  · rw [hs, ht]; rfl

end Sys2Proof.Proofs
end

