-- ==== Sys2Proof/Proofs/EntryClaims.lean ====
section
/-! The entry of a step (49_trace_verifier.md R281, R282): the state after the interrupt check with the bytes that the
fetch reads, and what the recorder gets of it. -/

namespace Sys2Proof.Proofs

open Sys2Proof.Machine Sys2Proof.Claims

/-! ### The entry of a step -/

/-- The number of operand bytes of a format (R80). -/
def operandCount : Format → Nat
  | .f1 _ => 0
  | .f2 _ => 1
  | .f3 _ => 2

theorem Makes.operand_length {f : Format} {i : Instr} {operand : List Byte} (h : Makes f i operand) :
    operand.length = operandCount f := by
  cases h <;> rfl

/-- R80, R83: the format of an opcode byte takes as many operand bytes as the mode of its entry. -/
theorem operandCount_formatOf (op : Byte) : operandCount (formatOf op) = (decodeSpec op).mode.width := by
  cases hr : findRow op with
  | none => rw [formatOf_of_findRow_none hr, decodeSpec_of_findRow_none hr]; rfl
  | some r =>
    have hrows : ∀ r ∈ opcodeMap, operandCount r.format = r.mode.width := by decide +kernel
    rw [formatOf_of_findRow_some hr, decodeSpec_of_findRow_some hr, hrows r (findRow_some hr).1]

/-- R113 to R115: the encoding of the fetched instruction starts the three bytes at PC, and it is as long as the entry
of its opcode byte says. -/
theorem encode_fetch (s : State) :
    encode s.fetch = [s.read s.pc, s.read (s.pc + 1), s.read (s.pc + 2)].take (decodeSpec (s.read s.pc)).length := by
  obtain ⟨operand, rest, hmakes, hbytes⟩ := makes_decodeBytes (s.read s.pc) (s.read (s.pc + 1)) (s.read (s.pc + 2))
  have hencode : encode s.fetch = s.read s.pc :: operand := (encode_of_makes hmakes).2
  have hlength : (s.read s.pc :: operand).length = (decodeSpec (s.read s.pc)).length := by
    rw [List.length_cons, hmakes.operand_length, operandCount_formatOf, Nat.add_comm]; rfl
  rw [hencode, ← hbytes, ← List.cons_append, ← hlength, List.take_left]

/-- R84: the fetched instruction has the entry of the byte at PC. -/
theorem fetch_length (s : State) : s.fetch.length = (decodeSpec (s.read s.pc)).length := by
  have hlow : 1 ≤ (decodeSpec (s.read s.pc)).length := (length_bounds _).1
  have hopcode : s.fetch.opcode = s.read s.pc := by
    obtain ⟨n, hn⟩ := Nat.exists_eq_add_of_le' hlow
    rw [Instr.opcode, encode_fetch, hn]; rfl
  rw [Instr.length, Instr.spec, hopcode]

/-- R281: the bytes read from PC on, as many as the entry says, are the first of the three that the fetch reads. -/
theorem entryAtPc_bytes (s : State) :
    s.entryAtPc.bytes = [s.read s.pc, s.read (s.pc + 1), s.read (s.pc + 2)].take (decodeSpec (s.read s.pc)).length := by
  have hhigh : (decodeSpec (s.read s.pc)).length ≤ 3 := (length_bounds _).2
  have hthree : [s.read s.pc, s.read (s.pc + 1), s.read (s.pc + 2)] =
      (List.range 3).map fun n => s.read (s.pc + BitVec.ofNat 16 n) := by
    simp [List.range_succ]
  rw [hthree, ← List.map_take, List.take_range, Nat.min_eq_left hhigh]
  rfl

/-- Settles O54: the entry is the snapshot of the state after the check; its bytes are the fetched ones. -/
theorem entryIsThePreExecutionState : Obligations.EntryIsThePreExecutionState := by
  intro s t e h u
  obtain ⟨-, rfl, -⟩ := callStep_ok h
  refine ⟨rfl, (entryAtPc_bytes u).trans (encode_fetch u).symm, ?_, rfl, rfl, rfl, rfl, rfl, rfl⟩
  rw [fetch_length]
  rfl

/-! ### What is recorded -/

theorem record_entries (s : State) (e : TraceEntry) :
    (s.record e).recorder.entries = s.recorder.entries ++ if s.recorder.recording then [e] else [] := by
  cases h : s.recorder.recording with
  | false => rw [State.record_off h, if_neg Bool.false_ne_true, List.append_nil]
  | true => rw [State.record_on h]; rfl

theorem entryAdded_of_ok {s t : State} {e : TraceEntry} (h : callStep s = .ok e t) :
    entryAdded s .step = if s.recorder.recording then [e] else [] := by
  unfold entryAdded
  rw [h]
  cases s.recorder.recording <;> rfl

theorem entryAdded_of_fault {s t : State} {f : Fault} (h : callStep s = .fault f t) : entryAdded s .step = [] := by
  unfold entryAdded
  rw [h]
  cases s.recorder.recording <;> rfl

/-- R282: a call of `step()` that completes adds its entry while recording is on, and one that faults adds nothing. -/
theorem callStep_after_entries (s : State) :
    (callStep s).after.recorder.entries = s.recorder.entries ++ entryAdded s .step := by
  cases hh : s.halted with
  | some b =>
    have hc := callStep_halted hh
    rw [entryAdded_of_fault hc, hc, List.append_nil]
    rfl
  | none =>
    have hrunning := callStep_running hh
    obtain ⟨u, hu⟩ | ⟨b, -, hf⟩ := exec_completes_or_faults s.checkInterrupts.fetch s.checkInterrupts
    · have hc := hrunning.trans (runInstruction_next hu)
      have hr : u.recorder = s.recorder := (exec_keepsSession hu).recorder.trans s.checkInterrupts_recorder
      rw [entryAdded_of_ok hc, hc, StepResult.after, record_entries, hr]
    · have hc := hrunning.trans (runInstruction_fault hf)
      rw [entryAdded_of_fault hc, hc, List.append_nil]
      exact congrArg Recorder.entries s.checkInterrupts_recorder

/-- Settles O55: of the host calls only a step that completes writes the recorded sequence. -/
theorem recorderAppendsOneEntryPerStep : Obligations.RecorderAppendsOneEntryPerStep := by
  intro s c
  cases c with
  | step => exact callStep_after_entries s
  | reset | requestNmi | requestIrq | startRecording => exact (List.append_nil _).symm
  | busWrite a v =>
    have hr : (s.write a v).recorder = s.recorder := State.write_recorder s a v
    exact (congrArg Recorder.entries hr).trans (List.append_nil _).symm

end Sys2Proof.Proofs
end

