-- ==== Sys2Proof/Proofs/ComparatorClaims.lean ====
section
/-! The comparator (49_trace_verifier.md R289 to R294): it finds the first field in which two sequences differ. -/

namespace Sys2Proof.Proofs

open Sys2Proof.Machine Sys2Proof.Claims

/-! ### Two entries -/

/-- R280: an entry is its eight fields. -/
theorem entry_ext_field {e r : TraceEntry} (h : ∀ f, e.field f = r.field f) : e = r := by
  obtain ⟨pc, bytes, a, x, y, p, sp, cyc⟩ := e
  obtain ⟨pc', bytes', a', x', y', p', sp', cyc'⟩ := r
  have number {n : Nat} {v w : BitVec n} (hvw : FieldValue.number v.toNat = .number w.toNat) : v = w :=
    BitVec.eq_of_toNat_eq (FieldValue.number.inj hvw)
  obtain rfl : pc = pc' := number (h .pc)
  obtain rfl : bytes = bytes' := FieldValue.bytes.inj (h .bytes)
  obtain rfl : a = a' := number (h .a)
  obtain rfl : x = x' := number (h .x)
  obtain rfl : y = y' := number (h .y)
  obtain rfl : p = p' := number (h .p)
  obtain rfl : sp = sp' := number (h .sp)
  obtain rfl : cyc = cyc' := FieldValue.number.inj (h .cyc)
  rfl

theorem mem_comparedFields (f : TraceField) : f ∈ comparedFields := by
  cases f <;> decide

/-- R290: no difference is found exactly when the entries are the same. -/
theorem firstDifference_eq_none_iff {e r : TraceEntry} : firstDifference e r = none ↔ e = r := by
  rw [firstDifference, List.find?_eq_none]
  constructor
  · intro h
    exact entry_ext_field fun f => by simpa using h f (mem_comparedFields f)
  · rintro rfl f -
    simp

/-- R294: where one field alone differs, that field is found. -/
theorem firstDifference_of_single {e r : TraceEntry} {f : TraceField} (hf : r.field f ≠ e.field f)
    (hothers : ∀ g, g ≠ f → r.field g = e.field g) : firstDifference e r = some f := by
  have hdiffers : (fun g => decide (e.field g ≠ r.field g)) = fun g => decide (g = f) := by
    funext g
    by_cases hg : g = f
    · subst hg; simp [hf.symm]
    · simp [hg, hothers g hg]
  rw [firstDifference, hdiffers]
  cases f <;> rfl

/-! ### Two sequences -/

/-- R291: the loop answers Match exactly when what is left of the two sequences is equal, `k` being the length of what
was compared before. -/
theorem compareFrom_eq_matched_iff (k i : Nat) (p r : List TraceEntry) :
    compareFrom (k + p.length) (k + r.length) i p r = .matched ↔ p = r := by
  induction p generalizing k i r with
  | nil => cases r <;> simp [compareFrom]
  | cons e p ih =>
    cases r with
    | nil => simp [compareFrom]
    | cons e' r =>
      have hstep := ih (k + 1) (i + 1) r
      rw [Nat.add_right_comm, Nat.add_right_comm k 1] at hstep
      rw [compareFrom]
      cases hd : firstDifference e e' with
      | some f =>
        have hne : e ≠ e' := fun he => by simp [firstDifference_eq_none_iff.mpr he] at hd
        simp [hne]
      | none =>
        obtain rfl := firstDifference_eq_none_iff.mp hd
        simpa [Nat.add_assoc] using hstep

theorem compareTraces_eq_matched_iff {cap : Option Nat} {produced reference : List TraceEntry} :
    compareTraces cap produced reference = .matched ↔ capped cap produced = capped cap reference := by
  rw [compareTraces, ← compareFrom_eq_matched_iff 0 0, Nat.zero_add, Nat.zero_add]

/-- Settles O59. -/
theorem matchMeansEqualUpToTheCap : Obligations.MatchMeansEqualUpToTheCap :=
  fun _ _ _ => compareTraces_eq_matched_iff

/-- R290, R294: the loop passes over the equal entries and stops at the one that was replaced. -/
theorem compareFrom_set {np nr k i : Nat} {es : List TraceEntry} {e e' : TraceEntry} {f : TraceField}
    (he : es[i]? = some e) (hd : firstDifference e e' = some f) :
    compareFrom np nr k es (es.set i e') =
      .traceMismatch (k + i) (.entry f) (e'.field f) (e.field f) (some e.pc) := by
  induction es generalizing k i with
  | nil => simp at he
  | cons x es ih =>
    cases i with
    | zero =>
      obtain rfl : x = e := Option.some.inj he
      rw [List.set_cons_zero, compareFrom, hd]
      rfl
    | succ i =>
      rw [List.set_cons_succ, compareFrom, firstDifference_eq_none_iff.mpr rfl]
      exact (ih he).trans (by rw [Nat.add_right_comm]; rfl)

/-- An entry below the cap stays where the sequence is cut. -/
theorem capped_getElem? {cap : Option Nat} {i : Nat} (hi : ∀ n, cap = some n → i < n) (es : List TraceEntry) :
    (capped cap es)[i]? = es[i]? := by
  cases cap with
  | none => rfl
  | some n => exact List.getElem?_take_of_lt (hi n rfl)

theorem capped_set (cap : Option Nat) (es : List TraceEntry) (i : Nat) (e : TraceEntry) :
    capped cap (es.set i e) = (capped cap es).set i e := by
  cases cap with
  | none => rfl
  | some n => exact List.take_set

/-- Settles O60: the trace and the log are equal up to the cap, so the changed field is the first difference. -/
theorem firstInjectedMismatchIsReported : Obligations.FirstInjectedMismatchIsReported := by
  rintro cap trace log _ i e e' f hmatched he rfl hcap hf hothers
  have hentry : (capped cap log)[i]? = some e := (capped_getElem? hcap log).trans he
  rw [compareTraces, compareTraces_eq_matched_iff.mp hmatched, capped_set,
    compareFrom_set hentry (firstDifference_of_single hf hothers), Nat.zero_add]

end Sys2Proof.Proofs
end

