-- ==== Sys2Proof/Proofs/ParseErrorClaims.lean ====
section
/-! Parse errors of the reference log (49_trace_verifier.md R286, R287): the number and the reason of the first
malformed line. -/

namespace Sys2Proof.Proofs

open Sys2Proof.Machine Sys2Proof.Claims

/-! ### The first malformed line -/

/-- Line `k`, counted from 0, is malformed for this reason, and the lines before it parse. -/
def FirstBadLine (lines : List (List Char)) (k : Nat) (reason : ParseReason) : Prop :=
  ∃ bad, lines[k]? = some bad ∧ parseLine bad = .malformed reason ∧
    ∀ j, j < k → ∃ good e, lines[j]? = some good ∧ parseLine good = .entry e

section
variable {line : List Char} {lines : List (List Char)} {n m k : Nat} {reason why : ParseReason} {e : TraceEntry}

theorem firstBadLine_of_malformed (h : parseLine line = .malformed why) :
    FirstBadLine (line :: lines) k reason ↔ k = 0 ∧ reason = why := by
  constructor
  · rintro ⟨bad, hbad, hreason, hbefore⟩
    cases k with
    | zero =>
      obtain rfl : line = bad := Option.some.inj hbad
      exact ⟨rfl, LineResult.malformed.inj (hreason.symm.trans h)⟩
    | succ k =>
      obtain ⟨good, e, hgood, he⟩ := hbefore 0 k.succ_pos
      obtain rfl : line = good := Option.some.inj hgood
      cases he.symm.trans h
  · rintro ⟨rfl, rfl⟩
    exact ⟨line, rfl, h, fun j hj => absurd hj j.not_lt_zero⟩

theorem firstBadLine_of_entry (h : parseLine line = .entry e) :
    FirstBadLine (line :: lines) k reason ↔ ∃ j, k = j + 1 ∧ FirstBadLine lines j reason := by
  constructor
  · rintro ⟨bad, hbad, hreason, hbefore⟩
    cases k with
    | zero =>
      obtain rfl : line = bad := Option.some.inj hbad
      cases h.symm.trans hreason
    | succ k => exact ⟨k, rfl, bad, hbad, hreason, fun j hj => hbefore (j + 1) (Nat.succ_lt_succ hj)⟩
  · rintro ⟨k, rfl, bad, hbad, hreason, hbefore⟩
    refine ⟨bad, hbad, hreason, fun j hj => ?_⟩
    cases j with
    | zero => exact ⟨line, e, rfl, h⟩
    | succ j => exact hbefore j (Nat.lt_of_succ_lt_succ hj)

theorem parseLines_of_malformed (h : parseLine line = .malformed why) :
    parseLines n (line :: lines) = .malformedReferenceLog n why := by
  rw [parseLines, h]

theorem parseLines_of_entry (h : parseLine line = .entry e) :
    parseLines n (line :: lines) = .malformedReferenceLog m reason ↔
      parseLines (n + 1) lines = .malformedReferenceLog m reason := by
  rw [parseLines, h]
  cases parseLines (n + 1) lines <;> simp

/-- The lines being numbered from `n`, an error names the first malformed one. -/
theorem parseLines_eq_malformed_iff :
    parseLines n lines = .malformedReferenceLog m reason ↔ ∃ k, m = n + k ∧ FirstBadLine lines k reason := by
  induction lines generalizing n with
  | nil => simp [parseLines, FirstBadLine]
  | cons line lines ih =>
    cases h : parseLine line with
    | malformed why =>
      rw [parseLines_of_malformed h]
      simp [firstBadLine_of_malformed h, eq_comm]
    | entry e =>
      rw [parseLines_of_entry h, ih]
      simp only [firstBadLine_of_entry h]
      constructor
      · rintro ⟨j, rfl, hj⟩; exact ⟨j + 1, by omega, j, rfl, hj⟩
      · rintro ⟨_, rfl, j, rfl, hj⟩; exact ⟨j, by omega, hj⟩

end

/-- Settles O58: the lines are numbered from 1. -/
theorem parseErrorNamesTheFirstBadLine : Obligations.ParseErrorNamesTheFirstBadLine := by
  intro text line reason
  rw [parseLog, parseLines_eq_malformed_iff]
  constructor
  · rintro ⟨k, rfl, bad, hfirst⟩
    rw [Nat.add_sub_cancel_left]
    exact ⟨bad, Nat.le_add_right 1 k, hfirst⟩
  · rintro ⟨bad, hline, hfirst⟩
    exact ⟨line - 1, (Nat.add_sub_of_le hline).symm, bad, hfirst⟩

end Sys2Proof.Proofs
end

