-- ==== Sys2Proof/Proofs/RoundTripClaims.lean ====
section
/-! Parsing takes back what formatting wrote (49_trace_verifier.md R285, R286, R288): digits, columns, lines, texts. -/

namespace Sys2Proof.Proofs

open Sys2Proof.Machine Sys2Proof.Claims

/-! ### Digits (R285, R288) -/

/-- A digit's value is the number it was written for. -/
theorem hexDigitValue_hexDigit : ∀ n < 16, hexDigitValue (hexDigit n) = some n := by decide

theorem decimalDigitValue_hexDigit : ∀ n < 10, decimalDigitValue (hexDigit n) = some n := by decide

theorem hexByte_formatByte (v : Byte) : hexByte (hexDigit (v.toNat / 16)) (hexDigit (v.toNat % 16)) = some v := by
  have hv : v.toNat < 256 := v.isLt
  have hhigh := hexDigitValue_hexDigit (v.toNat / 16) (by omega)
  have hlow := hexDigitValue_hexDigit (v.toNat % 16) (Nat.mod_lt _ (by decide))
  rw [hexByte, hhigh, hlow]
  simp [Nat.div_add_mod]

theorem decimalFrom_digit {n : Nat} (hn : n < 10) (acc : Nat) (rest : List Char) :
    decimalFrom acc (hexDigit n :: rest) = decimalFrom (10 * acc + n) rest := by
  rw [decimalFrom, decimalDigitValue_hexDigit n hn]

theorem parseDecimalAfterSpaces_digit {n : Nat} (hn : n < 10) (rest : List Char) :
    parseDecimalAfterSpaces (hexDigit n :: rest) = some (decimalFrom n rest) := by
  have hspace : ∀ n < 10, hexDigit n ≠ ' ' := by decide
  rw [parseDecimalAfterSpaces, if_neg (hspace n hn), decimalDigitValue_hexDigit n hn]

/-- Reading the digits of `n` and going on with what stands after them, by induction on the fuel: the digits before the
last are those of `n / 10`. -/
theorem parseDecimal_decimalDigits {fuel n : Nat} (hfuel : n < fuel) (acc : List Char) :
    parseDecimalAfterSpaces (decimalDigits fuel n acc) = some (decimalFrom n acc) := by
  induction fuel generalizing n acc with
  | zero => exact absurd hfuel n.not_lt_zero
  | succ fuel ih =>
    rw [decimalDigits]
    split
    · next hn => rw [Nat.mod_eq_of_lt hn, parseDecimalAfterSpaces_digit hn]
    · next hn =>
      rw [ih (by omega), decimalFrom_digit (Nat.mod_lt n (by decide)), Nat.div_add_mod]

theorem parseDecimal_formatDecimal (n : Nat) : parseDecimalAfterSpaces (formatDecimal n) = some n :=
  parseDecimal_decimalDigits n.lt_succ_self []

/-! ### The columns of a formatted line -/

theorem labelledByte_label (label : List Char) (v : Byte) (rest : List Char) :
    labelledByte label (label ++ (formatByte v ++ rest)) = some (v, rest) := by
  induction label with
  | nil => simp [labelledByte, formatByte, hexByte_formatByte]
  | cons c label ih => simpa [labelledByte] using ih

theorem parsePc_format (w : Word) : parsePc (formatByte (hiByte w) ++ formatByte (loByte w)) = some w := by
  simp [parsePc, formatByte, hexByte_formatByte]

/-- Columns 6 to 13: a group of spaces is no byte. -/
theorem parseBytes_format {bytes : List Byte} (hlow : 1 ≤ bytes.length) (hhigh : bytes.length ≤ 3) :
    parseBytes (padTo 8 (formatBytes bytes)) = some bytes := by
  have hspaces : hexByte ' ' ' ' = none := by decide
  match bytes with
  | [v0] => simp [padTo, formatBytes, formatByte, parseBytes, hexByte_formatByte, hspaces, List.replicate]
  | [v0, v1] => simp [padTo, formatBytes, formatByte, parseBytes, hexByte_formatByte, hspaces, List.replicate]
  | [v0, v1, v2] => simp [padTo, formatBytes, formatByte, parseBytes, hexByte_formatByte]

/-- Columns 48 to 72. -/
def registerText (e : TraceEntry) : List Char :=
  ['A', ':'] ++ (formatByte e.a ++ ([' ', 'X', ':'] ++ (formatByte e.x ++ ([' ', 'Y', ':'] ++ (formatByte e.y ++
    ([' ', 'P', ':'] ++ (formatByte e.p ++ ([' ', 'S', 'P', ':'] ++ (formatByte e.sp ++ [])))))))))

theorem parseRegisters_registerText (e : TraceEntry) :
    parseRegisters (registerText e) = some ⟨e.a, e.x, e.y, e.p, e.sp⟩ := by
  simp only [parseRegisters, registerText, labelledByte_label]

/-- Columns 73 on. -/
def cycleText (e : TraceEntry) : List Char := [' ', 'C', 'Y', 'C', ':'] ++ formatDecimal e.cyc

theorem parseCycle_cycleText (e : TraceEntry) : parseCycle (cycleText e) = some e.cyc := by
  have hhere : cycleHere ('C' :: 'Y' :: 'C' :: ':' :: formatDecimal e.cyc) = some e.cyc :=
    parseDecimal_formatDecimal e.cyc
  change parseCycle (' ' :: 'C' :: 'Y' :: 'C' :: ':' :: formatDecimal e.cyc) = some e.cyc
  rw [parseCycle, parseCycle, hhere]
  rfl

theorem formatEntry_eq (e : TraceEntry) :
    formatEntry e =
      (formatByte (hiByte e.pc) ++ formatByte (loByte e.pc)) ++ ([' ', ' '] ++ (padTo 8 (formatBytes e.bytes) ++
        (List.replicate 34 ' ' ++ (registerText e ++ cycleText e)))) := by
  simp only [formatEntry, registerText, cycleText, List.append_assoc, List.append_nil]

/-- A column range that starts where `before` ends and is as wide as `here`. -/
theorem columns_append {lo hi : Nat} {before here after : List Char} (hlo : before.length = lo)
    (hhi : lo + here.length = hi) : columns lo hi (before ++ (here ++ after)) = here := by
  subst hlo hhi
  rw [columns, List.drop_left, Nat.add_sub_cancel_left, List.take_left]

/-- R285: a line is the reading of its five columns, the gap between bytes and registers apart. -/
theorem parseLine_of_columns {pcText byteText gap registers cycle : List Char} {pc : Word} {bytes : List Byte}
    {r : RegisterColumns} {cyc : Nat} (hpcLength : pcText.length = 4) (hbyteLength : byteText.length = 8)
    (hgapLength : gap.length = 34) (hregisterLength : registers.length = 25) (hpc : parsePc pcText = some pc)
    (hbytes : parseBytes byteText = some bytes) (hregisters : parseRegisters registers = some r)
    (hcycle : parseCycle cycle = some cyc) :
    parseLine (pcText ++ ([' ', ' '] ++ (byteText ++ (gap ++ (registers ++ cycle))))) =
      .entry ⟨pc, bytes, r.a, r.x, r.y, r.p, r.sp, cyc⟩ := by
  generalize hline : pcText ++ ([' ', ' '] ++ (byteText ++ (gap ++ (registers ++ cycle)))) = line
  have hlength : ¬ line.length < 73 := by
    simp only [← hline, List.length_append, List.length_cons, List.length_nil]
    omega
  have hcolumns0 : columns 0 4 line = pcText := hline ▸ columns_append (before := []) rfl (by omega)
  have hcolumns4 : columns 4 6 line = [' ', ' '] := hline ▸ columns_append hpcLength rfl
  have hcolumns6 : columns 6 14 line = byteText := by
    rw [← hline, ← List.append_assoc]
    exact columns_append (by simp [hpcLength]) (by omega)
  have hregisterColumns : columns 48 73 line = registers := by
    rw [← hline, ← List.append_assoc, ← List.append_assoc, ← List.append_assoc]
    exact columns_append (by simp [hpcLength, hbyteLength, hgapLength]) (by omega)
  have hrest : line.drop 73 = cycle := by
    rw [← hline, ← List.append_assoc, ← List.append_assoc, ← List.append_assoc, ← List.append_assoc]
    exact List.drop_left' (by simp [hpcLength, hbyteLength, hgapLength, hregisterLength])
  rw [parseLine, if_neg hlength, hcolumns0, hpc, hcolumns4, hcolumns6, hbytes, hregisterColumns, hregisters, hrest,
    hcycle]
  rfl

theorem length_padTo_formatBytes {bytes : List Byte} (hhigh : bytes.length ≤ 3) :
    (padTo 8 (formatBytes bytes)).length = 8 := by
  match bytes with
  | [] | [_] | [_, _] | [_, _, _] => rfl

/-- R288 for one line. -/
theorem parseLine_formatEntry {e : TraceEntry} (hlow : 1 ≤ e.bytes.length) (hhigh : e.bytes.length ≤ 3) :
    parseLine (formatEntry e) = .entry e := by
  rw [formatEntry_eq]
  exact parseLine_of_columns rfl (length_padTo_formatBytes hhigh) rfl rfl (parsePc_format e.pc)
    (parseBytes_format hlow hhigh) (parseRegisters_registerText e) (parseCycle_cycleText e)

/-! ### The characters of a formatted line -/

/-- The characters at which R286 cuts a text. -/
def lineEnds : List Char := ['\n', '\r']

theorem mem_lineEnds {c : Char} : c ∈ lineEnds ↔ c = '\n' ∨ c = '\r' := by
  simp [lineEnds]

theorem hexDigit_notMem_lineEnds : ∀ n < 16, hexDigit n ∉ lineEnds := by decide

theorem formatByte_disjoint (v : Byte) : (formatByte v).Disjoint lineEnds := by
  have hv : v.toNat < 256 := v.isLt
  have hhigh := hexDigit_notMem_lineEnds (v.toNat / 16) (by omega)
  have hlow := hexDigit_notMem_lineEnds (v.toNat % 16) (Nat.mod_lt _ (by decide))
  simp [formatByte, hhigh, hlow]

theorem spaces_disjoint (n : Nat) : (List.replicate n ' ').Disjoint lineEnds := by
  intro c hc
  rw [List.eq_of_mem_replicate hc]
  decide

theorem formatBytes_disjoint (bytes : List Byte) : (formatBytes bytes).Disjoint lineEnds := by
  fun_induction formatBytes bytes with
  | case1 => exact List.disjoint_nil_left lineEnds
  | case2 v => exact formatByte_disjoint v
  | case3 v rest _ ih => simp [formatByte_disjoint, ih, mem_lineEnds]

theorem decimalDigits_disjoint (fuel n : Nat) {acc : List Char} (hacc : acc.Disjoint lineEnds) :
    (decimalDigits fuel n acc).Disjoint lineEnds := by
  induction fuel generalizing n acc with
  | zero => exact hacc
  | succ fuel ih =>
    have hdigit : hexDigit (n % 10) ∉ lineEnds := hexDigit_notMem_lineEnds _ (by omega)
    have hnext : (hexDigit (n % 10) :: acc).Disjoint lineEnds := List.disjoint_cons_left.mpr ⟨hdigit, hacc⟩
    rw [decimalDigits]
    split
    · exact hnext
    · exact ih (n / 10) hnext

theorem formatEntry_disjoint (e : TraceEntry) : (formatEntry e).Disjoint lineEnds := by
  have hbytes : (padTo 8 (formatBytes e.bytes)).Disjoint lineEnds :=
    List.disjoint_append_left.mpr ⟨formatBytes_disjoint e.bytes, spaces_disjoint _⟩
  have hcycle : (formatDecimal e.cyc).Disjoint lineEnds := decimalDigits_disjoint _ e.cyc (List.disjoint_nil_left _)
  simp [formatEntry, formatByte_disjoint, hbytes, hcycle, mem_lineEnds]

/-! ### The lines of a text -/

theorem splitLines_line {line : List Char} (h : '\n' ∉ line) (rest : List Char) :
    splitLines (line ++ '\n' :: rest) = line :: splitLines rest := by
  induction line with
  | nil => rw [List.nil_append, splitLines, if_pos rfl]
  | cons c line ih =>
    obtain ⟨hc, hline⟩ := not_or.mp (List.mem_cons.not.mp h)
    rw [List.cons_append, splitLines, if_neg (Ne.symm hc), ih hline]

theorem dropCarriageReturn_eq_self {line : List Char} (h : '\r' ∉ line) : dropCarriageReturn line = line := by
  rw [dropCarriageReturn, if_neg fun hlast => h (List.mem_of_getLast? hlast)]

/-- R286: lines without line ends in them, a line feed after each, are the lines of their text. -/
theorem linesOf_terminated {lines : List (List Char)} (h : ∀ line ∈ lines, line.Disjoint lineEnds) :
    linesOf (lines.flatMap (· ++ ['\n'])) = lines := by
  have hsplit : splitLines (lines.flatMap (· ++ ['\n'])) = lines ++ [[]] := by
    induction lines with
    | nil => rfl
    | cons line lines ih =>
      obtain ⟨hline, hlines⟩ := List.forall_mem_cons.mp h
      have hfeed : '\n' ∉ line := fun hc => hline hc (by decide)
      rw [List.flatMap_cons, List.append_assoc, List.singleton_append, splitLines_line hfeed, ih hlines,
        List.cons_append]
  have hreturns : (lines ++ [[]]).map dropCarriageReturn = lines ++ [[]] := by
    have hkept : ∀ line ∈ lines, dropCarriageReturn line = line :=
      fun line hl => dropCarriageReturn_eq_self fun hc => h line hl hc (by decide)
    rw [List.map_append, List.map_congr_left hkept, List.map_id']
    rfl
  rw [linesOf, hsplit, hreturns, dropEmptyLast, List.getLast?_concat, if_pos rfl, List.dropLast_concat]

/-! ### The round trip (R288) -/

theorem parseLines_format (n : Nat) {es : List TraceEntry}
    (h : ∀ e ∈ es, 1 ≤ e.bytes.length ∧ e.bytes.length ≤ 3) : parseLines n (es.map formatEntry) = .entries es := by
  induction es generalizing n with
  | nil => rfl
  | cons e es ih =>
    obtain ⟨⟨hlow, hhigh⟩, hrest⟩ := List.forall_mem_cons.mp h
    rw [List.map_cons, parseLines, parseLine_formatEntry hlow hhigh, ih (n + 1) hrest]

/-- Settles O57: the lines of the text are the formatted ones, and each parses to its entry. -/
theorem parsingUndoesFormatting : Obligations.ParsingUndoesFormatting := by
  intro es h
  have htext : (es.flatMap fun e => formatEntry e ++ ['\n']) = (es.map formatEntry).flatMap (· ++ ['\n']) := by
    rw [List.flatMap_map]
  have hlines : linesOf ((es.map formatEntry).flatMap (· ++ ['\n'])) = es.map formatEntry :=
    linesOf_terminated (List.forall_mem_map.mpr fun e _ => formatEntry_disjoint e)
  rw [parseLog, htext, hlines, parseLines_format 1 h]

end Sys2Proof.Proofs
end

