-- ==== Sys2Proof/Proofs/SessionClaims.lean ====
section
/-! Session creation and `reset()` (70_reset_and_hazards.md R340, R341), and the one condition an instruction can raise
(48_system.md R266; 60_exceptions.md R312). -/

namespace Sys2Proof.Proofs

open Sys2Proof.Machine Sys2Proof.Claims

/-! ### Conditions -/

/-- Settles O9: the `Unimplemented` variant is the only instruction that does not complete. -/
theorem documentedInstructionsComplete : Obligations.DocumentedInstructionsComplete := by
  intro i s hdocumented
  obtain hcompletes | ⟨op, hi, -⟩ := exec_completes_or_faults i s
  · exact hcompletes
  · exact absurd hi (hdocumented op)

/-- R266: the fetch gives the `Unimplemented` variant, whose fault latches the byte. -/
theorem callStep_undocumented {s : State} {op : Byte} (hop : op ∈ undocumentedOpcodes) (hrunning : s.halted = none)
    (hread : s.checkInterrupts.read s.checkInterrupts.pc = op) :
    callStep s = .fault (.unimplementedOpcode op) (s.checkInterrupts.latchHalt op) := by
  have hfetch : s.checkInterrupts.fetch = .unimplemented op := fetch_eq_unimplemented_iff.mpr ⟨hread, hop⟩
  have hfault : exec s.checkInterrupts.fetch s.checkInterrupts = .fault (.unimplementedOpcode op) := by
    rw [hfetch, exec_unimplemented]
  rw [callStep_running hrunning, runInstruction_fault hfault]
  rfl

/-- Settles O7. -/
theorem undocumentedByteFaultsAndLatches : Obligations.UndocumentedByteFaultsAndLatches := by
  intro s op hop
  refine ⟨exec_unimplemented op s, fun hrunning hread => ?_⟩
  have hcall := callStep_undocumented hop hrunning hread
  exact ⟨hcall, by rw [step_eq_outcome, hcall]; rfl⟩

/-! ### reset() -/

/-- Settles O50: `reset()` reads its vector through the bus, which the registers it has written do not touch. -/
theorem resetCallReinitialises : Obligations.ResetCallReinitialises := fun _ => rfl

/-! ### Session creation -/

/-- R341, R66: a session that is created is the placeholder with its image loaded, after `reset()`. -/
theorem createSession_eq_some {c : SessionParameters} {s : State} (h : createSession c = some s) :
    s = (placeholderState c.platform
      (loadImage c.platform (storeCells [] c.initMem) c.loadAddress c.image)).resetCall := by
  rw [createSession] at h
  split at h
  · exact (Option.some.inj h).symm
  · cases h

/-- Loading an image keeps the canonical form: each byte is one write to a cell. -/
theorem loadImage_wf (pf : Platform) (image : List Byte) {m : Memory} (hm : Memory.wf m = true) (a : Word) :
    Memory.wf (loadImage pf m a image) = true := by
  induction image generalizing m a with
  | nil => exact hm
  | cons v rest ih => exact ih (Memory.wf_set hm (canon pf a).toNat v (canon pf a).isLt) (a + 1)

/-- Settles O11: `reset()` writes P, storage is made of writes to cells, and nothing is recorded. -/
theorem createdSessionMeetsInvariant : Obligations.CreatedSessionMeetsInvariant := by
  intro c s h
  have hs := createSession_eq_some h
  have hp : s.p = 0x24 := congrArg State.p hs
  have hr : s.recorder.entries = [] := congrArg (fun t => t.recorder.entries) hs
  have hinit : Memory.wf (storeCells [] c.initMem) = true := storeCells_wf c.initMem rfl
  constructor
  · rw [hp]; decide
  · rw [hp]; decide
  · rw [createSession_mem h]; exact loadImage_wf c.platform c.image hinit c.loadAddress
  · rw [hr]; exact fun _ he => absurd he List.not_mem_nil

/-- Settles O51: zero memory holds 0x0000 at the reset vector, and `reset()` charges the default 7 cycles. -/
theorem resetStateIsTheDefaultSession : Obligations.ResetStateIsTheDefaultSession := rfl

/-- Settles O52: the placeholder has CYC 0, so that CYC is what `reset()` adds. -/
theorem powerOnState : Obligations.PowerOnState := by
  intro c s h
  obtain rfl := createSession_eq_some h
  exact ⟨rfl, rfl, rfl, rfl, rfl, rfl, rfl, Nat.zero_add c.platform.resetCycles, rfl, rfl, rfl, rfl⟩

end Sys2Proof.Proofs
end
